-- ==== Sys2Proof/Word.lean ====
section
/-! DEFINITION. The word and byte types of 00_scope.md R6. -/

namespace Sys2Proof

/-- A *word* is 32 bits: the width of every register (R6, R21). -/
abbrev Word := BitVec 32

/-- A *byte* is 8 bits, an unsigned value 0 to 255 (R6). -/
abbrev Byte := BitVec 8

end Sys2Proof
end

