-- ==== Sys2Proof/Machine/Bits.lean ====
section
/-! DEFINITION. Bit sequences in stream order and the integers of byte sequences (00_scope.md R8, 30_encoding.md R93). -/

namespace Sys2Proof.Machine

/-- A bit sequence in stream order: the first bit read stands first (R93). -/
abbrev Bits := List Bool

/-- The value of a *field*: the first bit is bit 0 (R93 (a)). -/
def fieldValue : Bits → Nat
  | [] => 0
  | b :: bs => b.toNat + 2 * fieldValue bs

/-- The `n` bits of a field of value `v`, least significant first (R93 (a)). -/
def fieldBits : Nat → Nat → Bits
  | 0, _ => []
  | n + 1, v => (v % 2 == 1) :: fieldBits n (v / 2)

/-- The value of a Huffman code: the first bit is its most significant (R93 (b)). -/
def codeValue (bs : Bits) : Nat :=
  bs.foldl (fun v b => v * 2 + b.toNat) 0

/-- The bits of a Huffman code of `n` bits, most significant first (R93 (b)). -/
def codeBits (n v : Nat) : Bits :=
  (fieldBits n v).reverse

/-- The bits of a byte sequence in stream order (R93). -/
def streamBits (s : List Byte) : Bits :=
  s.flatMap fun b => fieldBits 8 b.toNat

/-- `be(s)`: the big-endian value of a byte sequence (R8). -/
def be (s : List Byte) : Nat :=
  s.foldl (fun v b => v * 256 + b.toNat) 0

/-- `ser_be(n, v)`: the `n` bytes whose big-endian value is `v`, for `v < 256^n` (R8). -/
def serBe : Nat → Nat → List Byte
  | 0, _ => []
  | n + 1, v => serBe n (v / 256) ++ [BitVec.ofNat 8 v]

/-- How many bits are skipped from bit position `ipos` to the next byte boundary: 0 to 7 (R95, R105, R107). -/
def padding (ipos : Nat) : Nat :=
  (8 - ipos % 8) % 8

/-- Bits `lo` to `lo + n - 1` of a register as an unsigned integer (R6). -/
def field (w : Word) (lo n : Nat) : Nat :=
  w.toNat / 2 ^ lo % 2 ^ n

end Sys2Proof.Machine
end

