-- ==== Sys2Proof/Machine/Checksum.lean ====
section
/-! DEFINITION. The two checksums: CRC-32 (41_crc32.md R140) and Adler-32 (30_encoding.md R105). -/

namespace Sys2Proof.Machine

/-- One of the eight shifts of R140. -/
def crcShift (r : Word) : Word :=
  if r.getLsbD 0 then (r >>> 1) ^^^ 0xEDB88320#32 else r >>> 1

/-- One byte of R140: into the low 8 bits, then eight shifts. -/
def crcByte (r : Word) (b : Byte) : Word :=
  crcShift (crcShift (crcShift (crcShift (crcShift (crcShift (crcShift (crcShift (r ^^^ b.setWidth 32))))))))

/-- `crc_update(c, s)` (R140): CRC-32 continued from the finished value `c`. -/
def crcUpdate (c : Word) (s : List Byte) : Word :=
  s.foldl crcByte (c ^^^ 0xFFFFFFFF#32) ^^^ 0xFFFFFFFF#32

/-- The modulus of Adler-32 (R105). -/
def adlerMod : Nat := 65521

/-- One byte of Adler-32 (R105): the sums `(s1, s2)` after it. -/
def adlerStep (t : Nat × Nat) (b : Byte) : Nat × Nat :=
  ((t.1 + b.toNat) % adlerMod, (t.2 + (t.1 + b.toNat) % adlerMod) % adlerMod)

/-- The sums after a byte sequence (R105). -/
def adlerSums (s : List Byte) : Nat × Nat :=
  s.foldl adlerStep (1, 0)

/-- The checksum of the sums `s1`, `s2` (R105). -/
def adlerValue (s1 s2 : Nat) : Nat :=
  s2 * 65536 + s1

/-- `adler32(s)` (R105). -/
def adler32 (s : List Byte) : Nat :=
  adlerValue (adlerSums s).1 (adlerSums s).2

end Sys2Proof.Machine
end

