-- ==== Sys2Proof/Config.lean ====
section
/-! DEFINITION. What an implementation fixes (the parameters of 00_scope.md R5) and the free values the spec leaves open
(00_scope.md R11). The parameters are data, held in State and changed by no step, so that a statement over all states holds
for every value of them; a free value has no body, so that no proof can rest on what it is. -/

namespace Sys2Proof

/-- The OPEN parameters of R5: arguments of the model, fixed for a run (R43). -/
structure Params where
  /-- `BUF_SIZE`, the size in bytes of `BUF`, `1 <= BUF_SIZE <= 2^32` (R5, D3). -/
  bufSize : Nat
  /-- `MAXOP`, the greatest byte length of a MODEXP operand or result, 256 or more (R5, D5). -/
  maxOp : Nat
  /-- `REG_BASE`, where the host's bus places the register file (R5, R21). -/
  regBase : Nat
  /-- `BUF_BASE`, where the host's bus places the buffer (R5, R69). -/
  bufBase : Nat
deriving DecidableEq, Repr

/-- The ranges R5 gives the parameters. -/
abbrev Params.Ok (p : Params) : Prop :=
  1 ≤ p.bufSize ∧ p.bufSize ≤ 2 ^ 32 ∧ 256 ≤ p.maxOp

/-- The parameters of State.reset. DESIGN CHOICE (log 1): `BUF_SIZE = 4096`, the value of every vector of
95_test_vectors.md, and both bases 0; `MAXOP = 256` is R5's default. -/
def Params.standard : Params :=
  { bufSize := 4096, maxOp := 256, regBase := 0, bufBase := 0 }

/-- What byte `addr` of `BUF` holds after the `epoch`-th reset if nothing has written it since: unspecified (R45, R297 (a)),
a free value (log 2). -/
opaque Config.resetByte (epoch addr : Nat) : Byte

/-- The `draw`-th unspecified byte of a run (R11, R76, R77, R297 (b), (c)): a free value (logs 3 and 4). -/
opaque Config.freeByte (draw : Nat) : Byte

/-- `MAXBITS`, the greatest Huffman code length of a DEFLATE stream (R5). -/
def Config.maxBits : Nat := 15

/-- `MAXDIST`, the greatest distance a DEFLATE stream can encode (R5, R101). -/
def Config.maxDist : Nat := 32768

end Sys2Proof
end

