-- ==== Sys2Proof/Machine/Huffman.lean ====
section
/-! DEFINITION. Canonical Huffman code sets (30_encoding.md R96), the fixed sets (R97, R98), which sets a dynamic block may
use (R104, 43_inflate.md R185), and decoding one symbol bit by bit (43_inflate.md R174). -/

namespace Sys2Proof.Machine

/-- A code set over the symbols `0 .. N-1`: the length of every symbol (0: no code) and its canonical code (R96). -/
structure CodeSet where
  lens : List Nat
  codes : List Nat
deriving DecidableEq, Repr

/-- The set with no code. -/
def CodeSet.empty : CodeSet := { lens := [], codes := [] }

/-- `count[b]` of R96: how many symbols have length `b`, and 0 for `b = 0`. -/
def lengthCount (lens : List Nat) (b : Nat) : Nat :=
  if b = 0 then 0 else lens.count b

/-- `next[b]` of R96 before any symbol is numbered: the first code of length `b`. -/
def firstCode (lens : List Nat) : Nat → Nat
  | 0 => 0
  | b + 1 => (firstCode lens b + lengthCount lens b) * 2

/-- The second loop of R96: number the symbols in ascending order from the table `next`. A symbol without a code is given
the code 0, which no decoding looks at. -/
def assignCodes : List Nat → List Nat → List Nat
  | [], _ => []
  | l :: ls, next =>
    if l = 0 then 0 :: assignCodes ls next
    else next.getD l 0 :: assignCodes ls (next.set l (next.getD l 0 + 1))

/-- `build_codes` (R96). -/
def buildCodes (lens : List Nat) : CodeSet :=
  { lens := lens
    codes := assignCodes lens ((List.range (Config.maxBits + 1)).map (firstCode lens)) }

/-- `maxlen` of a set (R96). -/
def CodeSet.maxLen (t : CodeSet) : Nat :=
  t.lens.foldl Nat.max 0

/-- The Kraft sum of a list of lengths (R96). -/
def kraft (lens : List Nat) : Nat :=
  (lens.map fun l => if l = 0 then 0 else 2 ^ (Config.maxBits - l)).sum

/-- `check_set` (R185, R104): complete, or exactly one code of one bit, or, where `allowEmpty`, no code at all. -/
def acceptableSet (lens : List Nat) (allowEmpty : Bool) : Bool :=
  let used := lens.filter (· ≠ 0)
  kraft lens == 2 ^ Config.maxBits || (kraft lens < 2 ^ Config.maxBits && (used == [1] || (used == [] && allowEmpty)))

/-- The lengths of the fixed literal/length set (R97). -/
def fixedLitLenLens : List Nat :=
  List.replicate 144 8 ++ List.replicate 112 9 ++ List.replicate 24 7 ++ List.replicate 8 8

/-- The lengths of the fixed distance set (R98). -/
def fixedDistLens : List Nat :=
  List.replicate 32 5

/-- The symbol of length `l` and code `code`, searched from symbol `s` on (R174). -/
def findCode (l code : Nat) : Nat → List Nat → List Nat → Option Nat
  | s, len :: lens, c :: codes => if len = l ∧ c = code then some s else findCode l code (s + 1) lens codes
  | _, _, _ => none

/-- Why the bits at the cursor are no element. Each is an error of INFLATE (Machine/Fetch.lean maps it to its code). -/
inductive Reject where
  /-- a read passes the end of the source region (R172): `E_TRUNC` -/
  | truncated
  /-- `CM` is not 8 (R92): `E_ZHDR` -/
  | notDeflate
  /-- the bits match no code of the set up to its greatest length (R174): `E_SYMBOL` -/
  | noCode
  /-- code-length symbol 16 with no length before it, found before its extra bits are read (R184): `E_CODELEN` -/
  | nothingToRepeat
  /-- a number outside the element's alphabet: no set that reaches the decoder has such a symbol (R183 to R185, R97, R98) -/
  | outsideAlphabet
deriving DecidableEq, Repr

/-- The loop of `decode(T)` (R174): `k` lengths are still to be tried, `l` bits of value `code` have been read. -/
def huffmanLoop (t : CodeSet) : Nat → Nat → Nat → Bits → Except Reject (Nat × Bits)
  | 0, _, _, _ => .error .noCode
  | _ + 1, _, _, [] => .error .truncated
  | k + 1, l, code, b :: bs =>
    match findCode (l + 1) (code * 2 + b.toNat) 0 t.lens t.codes with
    | some s => .ok (s, bs)
    | none => huffmanLoop t k (l + 1) (code * 2 + b.toNat) bs

/-- `decode(T)` (R174): the symbol and the bits after its code. -/
def huffmanDecode (t : CodeSet) (bs : Bits) : Except Reject (Nat × Bits) :=
  huffmanLoop t t.maxLen 0 0 bs

end Sys2Proof.Machine
end

