-- ==== Sys2Proof/Syntax.lean ====
section
/-! DEFINITION. The syntax: one constructor per row of spec/opcode_table.json, in the table's order. A command word carries no
operand (30_encoding.md R90); a stream element carries the fields that stand in the stream after its code. -/

namespace Sys2Proof

/-- The command words (R87), the elements of a zlib stream (R91 to R107) and the filter-type bytes (R110). -/
inductive Instr where
  -- command words, written to CMD (R86, R87)
  | nop
  | crc32
  | crc32Cont
  | crcCheck
  | defilter
  | inflate
  | modexp
  /-- every 32-bit word that is none of the seven above (R89) -/
  | illegalCmd (w : Word)
  -- zlib header with `CM = 8` (R92)
  | zlibHeader (cinfo : BitVec 4) (flevel : BitVec 2) (fdict : Bool) (fcheck : BitVec 5)
  -- block headers, with BFINAL (R94)
  | blockStored (final : Bool)
  | blockFixed (final : Bool)
  | blockDynamic (final : Bool)
  | blockReserved (final : Bool)
  /-- `LEN` and `NLEN` of a stored block; its `LEN` data bytes follow in the stream (R95) -/
  | storedLen (len nlen : BitVec 16)
  -- dynamic block header (R102, R103)
  | dynCounts (hlit hdist : BitVec 5) (hclen : BitVec 4)
  | dynClLens (lens : List (BitVec 3))
  | clLen0To15 (len : BitVec 4)
  | clRepeatPrev (extra : BitVec 2)
  | clZeros3To10 (extra : BitVec 3)
  | clZeros11To138 (extra : BitVec 7)
  -- the fixed codes, most significant code bit first in the stream (R97, R98)
  | fixedLl0To143 (code : BitVec 8)
  | fixedLl144To255 (code : BitVec 9)
  | fixedLl256To279 (code : BitVec 7)
  | fixedLl280To287 (code : BitVec 8)
  | fixedDist0To31 (code : BitVec 5)
  -- the literal/length alphabet (R99, R100); `e` is the extra field
  | literal (b : Byte)
  | endOfBlock
  | len257
  | len258
  | len259
  | len260
  | len261
  | len262
  | len263
  | len264
  | len265 (e : BitVec 1)
  | len266 (e : BitVec 1)
  | len267 (e : BitVec 1)
  | len268 (e : BitVec 1)
  | len269 (e : BitVec 2)
  | len270 (e : BitVec 2)
  | len271 (e : BitVec 2)
  | len272 (e : BitVec 2)
  | len273 (e : BitVec 3)
  | len274 (e : BitVec 3)
  | len275 (e : BitVec 3)
  | len276 (e : BitVec 3)
  | len277 (e : BitVec 4)
  | len278 (e : BitVec 4)
  | len279 (e : BitVec 4)
  | len280 (e : BitVec 4)
  | len281 (e : BitVec 5)
  | len282 (e : BitVec 5)
  | len283 (e : BitVec 5)
  | len284 (e : BitVec 5)
  | len285
  /-- symbol 286 (`odd = false`) or 287 (`odd = true`) -/
  | ll286To287 (odd : Bool)
  -- the distance alphabet (R101); `e` is the extra field
  | dist0
  | dist1
  | dist2
  | dist3
  | dist4 (e : BitVec 1)
  | dist5 (e : BitVec 1)
  | dist6 (e : BitVec 2)
  | dist7 (e : BitVec 2)
  | dist8 (e : BitVec 3)
  | dist9 (e : BitVec 3)
  | dist10 (e : BitVec 4)
  | dist11 (e : BitVec 4)
  | dist12 (e : BitVec 5)
  | dist13 (e : BitVec 5)
  | dist14 (e : BitVec 6)
  | dist15 (e : BitVec 6)
  | dist16 (e : BitVec 7)
  | dist17 (e : BitVec 7)
  | dist18 (e : BitVec 8)
  | dist19 (e : BitVec 8)
  | dist20 (e : BitVec 9)
  | dist21 (e : BitVec 9)
  | dist22 (e : BitVec 10)
  | dist23 (e : BitVec 10)
  | dist24 (e : BitVec 11)
  | dist25 (e : BitVec 11)
  | dist26 (e : BitVec 12)
  | dist27 (e : BitVec 12)
  | dist28 (e : BitVec 13)
  | dist29 (e : BitVec 13)
  /-- symbol 30 (`odd = false`) or 31 (`odd = true`) -/
  | dist30To31 (odd : Bool)
  /-- the four trailer bytes, read big-endian (R105) -/
  | zlibTrailer (adler : Word)
  -- filter-type bytes (R110)
  | filterNone
  | filterSub
  | filterUp
  | filterAverage
  | filterPaeth
  /-- a filter-type byte of 5 to 255 (R159) -/
  | filterIllegal (b : Byte)
deriving DecidableEq, Repr

end Sys2Proof
end

