-- ==== Sys2Proof/WellFormed.lean ====
section
/-! DEFINITION. Which instructions are well formed: the ranges the encodings of 30_encoding.md admit that the field widths
do not already enforce. What an encoding admits and a rule then makes an error (an illegal `CINFO`, `HLIT + 257 > 286`) is
well formed here: the instruction exists and its meaning raises the error. -/

namespace Sys2Proof

/-- The decoder of R87 in its own words: bits 31:16 are 0, bits 15:9 are 0, `OPCODE <= 0x05`, and bit 8 is 0 unless
`OPCODE = 0x01`. -/
def legalWord (w : Word) : Bool :=
  w.toNat / 2 ^ 16 == 0 && w.toNat / 2 ^ 9 % 2 ^ 7 == 0 && w.toNat % 2 ^ 8 ≤ 5
    && (w.toNat / 2 ^ 8 % 2 == 0 || w.toNat % 2 ^ 8 == 1)

/-- The checks, one for each constructor whose fields admit more than the encoding does. -/
def Instr.wellFormed : Instr → Bool
  | .illegalCmd w => !legalWord w
  -- `ncl = HCLEN + 4` fields, 4 to 19 (R102)
  | .dynClLens lens => 4 ≤ lens.length && lens.length ≤ 19
  -- the code ranges of R97
  | .fixedLl0To143 code => 0x30 ≤ code.toNat && code.toNat ≤ 0xBF
  | .fixedLl144To255 code => 0x190 ≤ code.toNat
  | .fixedLl256To279 code => code.toNat ≤ 0x17
  | .fixedLl280To287 code => 0xC0 ≤ code.toNat && code.toNat ≤ 0xC7
  -- R110: 0 to 4 are the five kinds
  | .filterIllegal b => 5 ≤ b.toNat
  | _ => true

end Sys2Proof
end

