-- ==== Sys2Proof/Decode.lean ====
section
/-! DEFINITION. The decoder, total on any bits and rejecting by name, and after it the encoder. There is one decoder for each
format of spec/opcode_table.json; a bit sequence stands in stream order (30_encoding.md R93), a command word and a symbol
number least significant bit first. -/

namespace Sys2Proof

open Sys2Proof.Machine (Bits Reject fieldValue fieldBits codeValue codeBits)

/-- The formats of the opcode table. `clLens` knows the number of fields to read (R102). -/
inductive Format where
  | cmdWord
  | zlibHeader
  | blockHeader
  | storedBody
  | dynCounts
  | dynClLens (ncl : Nat)
  | clSymbol
  | fixedLitLen
  | fixedDist
  | litLenSymbol
  | distSymbol
  | zlibTrailer
  | filterByte
deriving DecidableEq, Repr

/-- The next `n` bits and the rest; too few bits are `truncated` (43_inflate.md R172). -/
def takeBits (n : Nat) (bs : Bits) : Except Reject (Bits × Bits) :=
  if n ≤ bs.length then .ok (bs.take n, bs.drop n) else .error .truncated

/-- `getbits(n)`: a field of `n` bits, least significant first (R172). -/
def getField (n : Nat) (bs : Bits) : Except Reject (BitVec n × Bits) :=
  match takeBits n bs with
  | .ok (f, rest) => .ok (BitVec.ofNat n (fieldValue f), rest)
  | .error e => .error e

/-- One bit. -/
def getBit : Bits → Except Reject (Bool × Bits)
  | [] => .error .truncated
  | b :: bs => .ok (b, bs)

/-- The command word (R86 to R89): every word is one of the seven legal ones or illegal. -/
def decodeCommand (w : Word) : Instr :=
  if w.toNat / 2 ^ 9 ≠ 0 then .illegalCmd w
  else
    match w.toNat % 2 ^ 8, w.toNat / 2 ^ 8 % 2 with
    | 0x00, 0 => .nop
    | 0x01, 0 => .crc32
    | 0x01, 1 => .crc32Cont
    | 0x02, 0 => .crcCheck
    | 0x03, 0 => .defilter
    | 0x04, 0 => .inflate
    | 0x05, 0 => .modexp
    | _, _ => .illegalCmd w

/-- The zlib header (R92, 43_inflate.md R176): both bytes are read before either is judged. In stream order `CM`, `CINFO`
(byte `CMF`), then `FCHECK`, `FDICT`, `FLEVEL` (byte `FLG`). -/
def decodeHeader (bs : Bits) : Except Reject (Instr × Bits) :=
  match takeBits 16 bs with
  | .error e => .error e
  | .ok (h, rest) =>
    if fieldValue (h.take 4) ≠ 8 then .error .notDeflate
    else
      .ok (.zlibHeader (BitVec.ofNat 4 (fieldValue ((h.drop 4).take 4))) (BitVec.ofNat 2 (fieldValue ((h.drop 14).take 2)))
        (h.getD 13 false) (BitVec.ofNat 5 (fieldValue ((h.drop 8).take 5))), rest)

/-- `BFINAL`, then `BTYPE` (R94). -/
def decodeBlockHeader : Bits → Except Reject (Instr × Bits)
  | f :: t0 :: t1 :: rest =>
    .ok (match t0, t1 with
      | false, false => .blockStored f
      | true, false => .blockFixed f
      | false, true => .blockDynamic f
      | true, true => .blockReserved f, rest)
  | _ => .error .truncated

/-- `LEN` and `NLEN`, from a byte boundary (R95). -/
def decodeStoredBody (bs : Bits) : Except Reject (Instr × Bits) :=
  match getField 16 bs with
  | .error e => .error e
  | .ok (len, bs) =>
    match getField 16 bs with
    | .error e => .error e
    | .ok (nlen, bs) => .ok (.storedLen len nlen, bs)

/-- `HLIT`, `HDIST`, `HCLEN` (R102). -/
def decodeDynCounts (bs : Bits) : Except Reject (Instr × Bits) :=
  match getField 5 bs with
  | .error e => .error e
  | .ok (hlit, bs) =>
    match getField 5 bs with
    | .error e => .error e
    | .ok (hdist, bs) =>
      match getField 4 bs with
      | .error e => .error e
      | .ok (hclen, bs) => .ok (.dynCounts hlit hdist hclen, bs)

/-- `n` fields of `k` bits. -/
def getFields (k : Nat) : Nat → Bits → Except Reject (List (BitVec k) × Bits)
  | 0, bs => .ok ([], bs)
  | n + 1, bs =>
    match getField k bs with
    | .error e => .error e
    | .ok (v, bs) =>
      match getFields k n bs with
      | .error e => .error e
      | .ok (vs, bs) => .ok (v :: vs, bs)

/-- The code-length-code lengths, `ncl` fields of 3 bits (R102, R183). -/
def decodeDynClLens (ncl : Nat) (bs : Bits) : Except Reject (Instr × Bits) :=
  match getFields 3 ncl bs with
  | .error e => .error e
  | .ok (lens, bs) => .ok (.dynClLens lens, bs)

/-- An element with one extra field of `n` bits after its symbol. -/
def withExtra (n : Nat) (mk : BitVec n → Instr) (bs : Bits) : Except Reject (Instr × Bits) :=
  match getField n bs with
  | .error e => .error e
  | .ok (e, bs) => .ok (mk e, bs)

/-- Symbol `s` of the code-length alphabet and its extra field (R103). -/
def decodeClSymbol (s : Nat) (bs : Bits) : Except Reject (Instr × Bits) :=
  if s ≤ 15 then .ok (.clLen0To15 (BitVec.ofNat 4 s), bs)
  else
    match s with
    | 16 => withExtra 2 .clRepeatPrev bs
    | 17 => withExtra 3 .clZeros3To10 bs
    | 18 => withExtra 7 .clZeros11To138 bs
    | _ => .error .outsideAlphabet

/-- The fixed literal/length code (R97): 7 bits up to `0010111`, 8 bits `00110000` to `11000111`, else 9 bits. -/
def decodeFixedLitLen (bs : Bits) : Except Reject (Instr × Bits) :=
  match takeBits 7 bs with
  | .error e => .error e
  | .ok (c7, _) =>
    if codeValue c7 ≤ 0x17 then .ok (.fixedLl256To279 (BitVec.ofNat 7 (codeValue c7)), bs.drop 7)
    else
      match takeBits 8 bs with
      | .error e => .error e
      | .ok (c8, _) =>
        if codeValue c8 ≤ 0xBF then .ok (.fixedLl0To143 (BitVec.ofNat 8 (codeValue c8)), bs.drop 8)
        else if codeValue c8 ≤ 0xC7 then .ok (.fixedLl280To287 (BitVec.ofNat 8 (codeValue c8)), bs.drop 8)
        else
          match takeBits 9 bs with
          | .error e => .error e
          | .ok (c9, _) => .ok (.fixedLl144To255 (BitVec.ofNat 9 (codeValue c9)), bs.drop 9)

/-- The fixed distance code, 5 bits (R98). -/
def decodeFixedDist (bs : Bits) : Except Reject (Instr × Bits) :=
  match takeBits 5 bs with
  | .error e => .error e
  | .ok (c, rest) => .ok (.fixedDist0To31 (BitVec.ofNat 5 (codeValue c)), rest)

/-- Symbol `s` of the literal/length alphabet and its extra field (R99, R100). -/
def decodeLitLenSymbol (s : Nat) (bs : Bits) : Except Reject (Instr × Bits) :=
  if s ≤ 255 then .ok (.literal (BitVec.ofNat 8 s), bs)
  else
    match s with
    | 256 => .ok (.endOfBlock, bs)
    | 257 => .ok (.len257, bs)
    | 258 => .ok (.len258, bs)
    | 259 => .ok (.len259, bs)
    | 260 => .ok (.len260, bs)
    | 261 => .ok (.len261, bs)
    | 262 => .ok (.len262, bs)
    | 263 => .ok (.len263, bs)
    | 264 => .ok (.len264, bs)
    | 265 => withExtra 1 .len265 bs
    | 266 => withExtra 1 .len266 bs
    | 267 => withExtra 1 .len267 bs
    | 268 => withExtra 1 .len268 bs
    | 269 => withExtra 2 .len269 bs
    | 270 => withExtra 2 .len270 bs
    | 271 => withExtra 2 .len271 bs
    | 272 => withExtra 2 .len272 bs
    | 273 => withExtra 3 .len273 bs
    | 274 => withExtra 3 .len274 bs
    | 275 => withExtra 3 .len275 bs
    | 276 => withExtra 3 .len276 bs
    | 277 => withExtra 4 .len277 bs
    | 278 => withExtra 4 .len278 bs
    | 279 => withExtra 4 .len279 bs
    | 280 => withExtra 4 .len280 bs
    | 281 => withExtra 5 .len281 bs
    | 282 => withExtra 5 .len282 bs
    | 283 => withExtra 5 .len283 bs
    | 284 => withExtra 5 .len284 bs
    | 285 => .ok (.len285, bs)
    | 286 => .ok (.ll286To287 false, bs)
    | 287 => .ok (.ll286To287 true, bs)
    | _ => .error .outsideAlphabet

/-- Symbol `d` of the distance alphabet and its extra field (R101). -/
def decodeDistSymbol (d : Nat) (bs : Bits) : Except Reject (Instr × Bits) :=
  match d with
  | 0 => .ok (.dist0, bs)
  | 1 => .ok (.dist1, bs)
  | 2 => .ok (.dist2, bs)
  | 3 => .ok (.dist3, bs)
  | 4 => withExtra 1 .dist4 bs
  | 5 => withExtra 1 .dist5 bs
  | 6 => withExtra 2 .dist6 bs
  | 7 => withExtra 2 .dist7 bs
  | 8 => withExtra 3 .dist8 bs
  | 9 => withExtra 3 .dist9 bs
  | 10 => withExtra 4 .dist10 bs
  | 11 => withExtra 4 .dist11 bs
  | 12 => withExtra 5 .dist12 bs
  | 13 => withExtra 5 .dist13 bs
  | 14 => withExtra 6 .dist14 bs
  | 15 => withExtra 6 .dist15 bs
  | 16 => withExtra 7 .dist16 bs
  | 17 => withExtra 7 .dist17 bs
  | 18 => withExtra 8 .dist18 bs
  | 19 => withExtra 8 .dist19 bs
  | 20 => withExtra 9 .dist20 bs
  | 21 => withExtra 9 .dist21 bs
  | 22 => withExtra 10 .dist22 bs
  | 23 => withExtra 10 .dist23 bs
  | 24 => withExtra 11 .dist24 bs
  | 25 => withExtra 11 .dist25 bs
  | 26 => withExtra 12 .dist26 bs
  | 27 => withExtra 12 .dist27 bs
  | 28 => withExtra 13 .dist28 bs
  | 29 => withExtra 13 .dist29 bs
  | 30 => .ok (.dist30To31 false, bs)
  | 31 => .ok (.dist30To31 true, bs)
  | _ => .error .outsideAlphabet

/-- The filter-type byte of a scanline (R110): total. -/
def decodeFilterByte (b : Byte) : Instr :=
  match b.toNat with
  | 0 => .filterNone
  | 1 => .filterSub
  | 2 => .filterUp
  | 3 => .filterAverage
  | 4 => .filterPaeth
  | _ => .filterIllegal b

/-- A byte read as a whole from a byte boundary (43_inflate.md R173). -/
def getByte (bs : Bits) : Except Reject (Byte × Bits) :=
  getField 8 bs

/-- The trailer from a byte boundary: four bytes, big-endian (R105, 43_inflate.md R205). -/
def decodeTrailer (bs : Bits) : Except Reject (Instr × Bits) :=
  match getFields 8 4 bs with
  | .error e => .error e
  | .ok (s, bs) => .ok (.zlibTrailer (BitVec.ofNat 32 (Sys2Proof.Machine.be s)), bs)

/-- The decoder of a format: the instruction and the bits after it. -/
def decode (f : Format) (bs : Bits) : Except Reject (Instr × Bits) :=
  match f with
  | .cmdWord =>
    match getField 32 bs with
    | .error e => .error e
    | .ok (w, bs) => .ok (decodeCommand w, bs)
  | .zlibHeader => decodeHeader bs
  | .blockHeader => decodeBlockHeader bs
  | .storedBody => decodeStoredBody bs
  | .dynCounts => decodeDynCounts bs
  | .dynClLens ncl => decodeDynClLens ncl bs
  | .clSymbol =>
    match getField 5 bs with
    | .error e => .error e
    | .ok (s, bs) => decodeClSymbol s.toNat bs
  | .fixedLitLen => decodeFixedLitLen bs
  | .fixedDist => decodeFixedDist bs
  | .litLenSymbol =>
    match getField 9 bs with
    | .error e => .error e
    | .ok (s, bs) => decodeLitLenSymbol s.toNat bs
  | .distSymbol =>
    match getField 5 bs with
    | .error e => .error e
    | .ok (d, bs) => decodeDistSymbol d.toNat bs
  | .zlibTrailer => decodeTrailer bs
  | .filterByte =>
    match getByte bs with
    | .error e => .error e
    | .ok (b, bs) => .ok (decodeFilterByte b, bs)

/-! ## The encoder, from the same tables -/

/-- The format an instruction is written in. -/
def Instr.format : Instr → Format
  | .nop | .crc32 | .crc32Cont | .crcCheck | .defilter | .inflate | .modexp | .illegalCmd _ => .cmdWord
  | .zlibHeader .. => .zlibHeader
  | .blockStored _ | .blockFixed _ | .blockDynamic _ | .blockReserved _ => .blockHeader
  | .storedLen .. => .storedBody
  | .dynCounts .. => .dynCounts
  | .dynClLens lens => .dynClLens lens.length
  | .clLen0To15 _ | .clRepeatPrev _ | .clZeros3To10 _ | .clZeros11To138 _ => .clSymbol
  | .fixedLl0To143 _ | .fixedLl144To255 _ | .fixedLl256To279 _ | .fixedLl280To287 _ => .fixedLitLen
  | .fixedDist0To31 _ => .fixedDist
  | .literal _ | .endOfBlock => .litLenSymbol
  | .len257 | .len258 | .len259 | .len260 | .len261 | .len262 | .len263 | .len264 | .len265 _ | .len266 _
  | .len267 _ | .len268 _ | .len269 _ | .len270 _ | .len271 _ | .len272 _ | .len273 _ | .len274 _ | .len275 _
  | .len276 _ | .len277 _ | .len278 _ | .len279 _ | .len280 _ | .len281 _ | .len282 _ | .len283 _ | .len284 _
  | .len285 | .ll286To287 _ => .litLenSymbol
  | .dist0 | .dist1 | .dist2 | .dist3 | .dist4 _ | .dist5 _ | .dist6 _ | .dist7 _ | .dist8 _ | .dist9 _
  | .dist10 _ | .dist11 _ | .dist12 _ | .dist13 _ | .dist14 _ | .dist15 _ | .dist16 _ | .dist17 _ | .dist18 _
  | .dist19 _ | .dist20 _ | .dist21 _ | .dist22 _ | .dist23 _ | .dist24 _ | .dist25 _ | .dist26 _ | .dist27 _
  | .dist28 _ | .dist29 _ | .dist30To31 _ => .distSymbol
  | .zlibTrailer _ => .zlibTrailer
  | .filterNone | .filterSub | .filterUp | .filterAverage | .filterPaeth | .filterIllegal _ => .filterByte

/-- A symbol number of `n` bits and its extra field of `k` bits. -/
def symbolBits (n s k e : Nat) : Bits :=
  fieldBits n s ++ fieldBits k e

/-- The command word of a command (R87); 0 for an instruction that is none. -/
def commandWord : Instr → Word
  | .nop => 0x00000000#32
  | .crc32 => 0x00000001#32
  | .crc32Cont => 0x00000101#32
  | .crcCheck => 0x00000002#32
  | .defilter => 0x00000003#32
  | .inflate => 0x00000004#32
  | .modexp => 0x00000005#32
  | .illegalCmd w => w
  | _ => 0#32

/-- The bits of a well-formed instruction in its format. -/
def encode : Instr → Bits
  | .nop => fieldBits 32 (commandWord .nop).toNat
  | .crc32 => fieldBits 32 (commandWord .crc32).toNat
  | .crc32Cont => fieldBits 32 (commandWord .crc32Cont).toNat
  | .crcCheck => fieldBits 32 (commandWord .crcCheck).toNat
  | .defilter => fieldBits 32 (commandWord .defilter).toNat
  | .inflate => fieldBits 32 (commandWord .inflate).toNat
  | .modexp => fieldBits 32 (commandWord .modexp).toNat
  | .illegalCmd w => fieldBits 32 w.toNat
  | .zlibHeader cinfo flevel fdict fcheck =>
    fieldBits 4 8 ++ fieldBits 4 cinfo.toNat ++ fieldBits 5 fcheck.toNat ++ [fdict] ++ fieldBits 2 flevel.toNat
  | .blockStored f => [f, false, false]
  | .blockFixed f => [f, true, false]
  | .blockDynamic f => [f, false, true]
  | .blockReserved f => [f, true, true]
  | .storedLen len nlen => fieldBits 16 len.toNat ++ fieldBits 16 nlen.toNat
  | .dynCounts hlit hdist hclen => fieldBits 5 hlit.toNat ++ fieldBits 5 hdist.toNat ++ fieldBits 4 hclen.toNat
  | .dynClLens lens => lens.flatMap fun l => fieldBits 3 l.toNat
  | .clLen0To15 l => fieldBits 5 l.toNat
  | .clRepeatPrev e => symbolBits 5 16 2 e.toNat
  | .clZeros3To10 e => symbolBits 5 17 3 e.toNat
  | .clZeros11To138 e => symbolBits 5 18 7 e.toNat
  | .fixedLl0To143 c => codeBits 8 c.toNat
  | .fixedLl144To255 c => codeBits 9 c.toNat
  | .fixedLl256To279 c => codeBits 7 c.toNat
  | .fixedLl280To287 c => codeBits 8 c.toNat
  | .fixedDist0To31 c => codeBits 5 c.toNat
  | .literal b => fieldBits 9 b.toNat
  | .endOfBlock => fieldBits 9 256
  | .len257 => fieldBits 9 257
  | .len258 => fieldBits 9 258
  | .len259 => fieldBits 9 259
  | .len260 => fieldBits 9 260
  | .len261 => fieldBits 9 261
  | .len262 => fieldBits 9 262
  | .len263 => fieldBits 9 263
  | .len264 => fieldBits 9 264
  | .len265 e => symbolBits 9 265 1 e.toNat
  | .len266 e => symbolBits 9 266 1 e.toNat
  | .len267 e => symbolBits 9 267 1 e.toNat
  | .len268 e => symbolBits 9 268 1 e.toNat
  | .len269 e => symbolBits 9 269 2 e.toNat
  | .len270 e => symbolBits 9 270 2 e.toNat
  | .len271 e => symbolBits 9 271 2 e.toNat
  | .len272 e => symbolBits 9 272 2 e.toNat
  | .len273 e => symbolBits 9 273 3 e.toNat
  | .len274 e => symbolBits 9 274 3 e.toNat
  | .len275 e => symbolBits 9 275 3 e.toNat
  | .len276 e => symbolBits 9 276 3 e.toNat
  | .len277 e => symbolBits 9 277 4 e.toNat
  | .len278 e => symbolBits 9 278 4 e.toNat
  | .len279 e => symbolBits 9 279 4 e.toNat
  | .len280 e => symbolBits 9 280 4 e.toNat
  | .len281 e => symbolBits 9 281 5 e.toNat
  | .len282 e => symbolBits 9 282 5 e.toNat
  | .len283 e => symbolBits 9 283 5 e.toNat
  | .len284 e => symbolBits 9 284 5 e.toNat
  | .len285 => fieldBits 9 285
  | .ll286To287 odd => fieldBits 9 (286 + odd.toNat)
  | .dist0 => fieldBits 5 0
  | .dist1 => fieldBits 5 1
  | .dist2 => fieldBits 5 2
  | .dist3 => fieldBits 5 3
  | .dist4 e => symbolBits 5 4 1 e.toNat
  | .dist5 e => symbolBits 5 5 1 e.toNat
  | .dist6 e => symbolBits 5 6 2 e.toNat
  | .dist7 e => symbolBits 5 7 2 e.toNat
  | .dist8 e => symbolBits 5 8 3 e.toNat
  | .dist9 e => symbolBits 5 9 3 e.toNat
  | .dist10 e => symbolBits 5 10 4 e.toNat
  | .dist11 e => symbolBits 5 11 4 e.toNat
  | .dist12 e => symbolBits 5 12 5 e.toNat
  | .dist13 e => symbolBits 5 13 5 e.toNat
  | .dist14 e => symbolBits 5 14 6 e.toNat
  | .dist15 e => symbolBits 5 15 6 e.toNat
  | .dist16 e => symbolBits 5 16 7 e.toNat
  | .dist17 e => symbolBits 5 17 7 e.toNat
  | .dist18 e => symbolBits 5 18 8 e.toNat
  | .dist19 e => symbolBits 5 19 8 e.toNat
  | .dist20 e => symbolBits 5 20 9 e.toNat
  | .dist21 e => symbolBits 5 21 9 e.toNat
  | .dist22 e => symbolBits 5 22 10 e.toNat
  | .dist23 e => symbolBits 5 23 10 e.toNat
  | .dist24 e => symbolBits 5 24 11 e.toNat
  | .dist25 e => symbolBits 5 25 11 e.toNat
  | .dist26 e => symbolBits 5 26 12 e.toNat
  | .dist27 e => symbolBits 5 27 12 e.toNat
  | .dist28 e => symbolBits 5 28 13 e.toNat
  | .dist29 e => symbolBits 5 29 13 e.toNat
  | .dist30To31 odd => fieldBits 5 (30 + odd.toNat)
  | .zlibTrailer a => (Sys2Proof.Machine.serBe 4 a.toNat).flatMap fun b => fieldBits 8 b.toNat
  | .filterNone => fieldBits 8 0
  | .filterSub => fieldBits 8 1
  | .filterUp => fieldBits 8 2
  | .filterAverage => fieldBits 8 3
  | .filterPaeth => fieldBits 8 4
  | .filterIllegal b => fieldBits 8 b.toNat

/-! ## The opcode table's words -/

/-- Forget the bits after the instruction and the reason of a rejection. -/
def decoded (r : Except Reject (Instr × Bits)) : Option Instr :=
  match r with
  | .ok (i, _) => some i
  | .error _ => none

/-- What the decoder reads from a table row's bits `w`. The table numbers a row's bits in the row's own match domain (a
command word, `CMF * 256 + FLG`, `BTYPE`, a symbol number, a filter byte), and those domains overlap: one number stands for
rows of several formats. DESIGN CHOICE (log 10): by width, 32 bits are a command word; 9 to 16 bits a literal/length symbol
number below 288, else a zlib header; up to 8 bits the narrowest domain that holds the value (`BTYPE` with `BFINAL = 0`, then a
distance symbol number, then a filter byte); 17 to 24 bits (rows whose symbol number stands in the low 5 bits) a code-length symbol 16 to
18, else a distance symbol. Every operand bit above the symbol number is 0. -/
def decodeTableWord (nbits w : Nat) : Option Instr :=
  if 32 < nbits then none
  else if 24 < nbits then decoded (decode .cmdWord (fieldBits 32 w))
  else if 16 < nbits then
    if 16 ≤ w % 32 ∧ w % 32 ≤ 18 then decoded (decodeClSymbol (w % 32) (List.replicate 16 false))
    else decoded (decodeDistSymbol (w % 32) (List.replicate 16 false))
  else if 8 < nbits then
    if w < 288 then decoded (decodeLitLenSymbol w (List.replicate 16 false))
    else decoded (decode .zlibHeader (fieldBits 8 (w / 256) ++ fieldBits 8 w))
  else if w < 4 then decoded (decode .blockHeader (false :: fieldBits 2 w))
  else if w < 32 then decoded (decodeDistSymbol w (List.replicate 16 false))
  else decoded (decode .filterByte (fieldBits 8 w))

end Sys2Proof
end

