-- ==== Sys2Proof/Machine/State.lean ====
section
/-! DEFINITION. The state of the block (10_state.md), the agents' coming moves, the ways a step can stop, and the state after
reset. Everything is plain data. -/

namespace Sys2Proof.Machine

/-- `BUF` (10_state.md R41): the bytes something has written, at their addresses, strictly rising (Memory.wf in
Machine/Ops.lean). An address not listed has not been written since reset; what it reads as is `State.unlistedByte`. -/
abbrev Memory := List Host.Cell

/-- The fields of `STATUS` (R23, R39). Bits 7:4 and 31:16 always read as 0 and are no state (log 17). -/
structure Status where
  /-- bit 0: from the issue of a command until its completion -/
  busy : Bool
  /-- bit 1: from the completion of a command until the next issue -/
  done : Bool
  /-- bit 2: the last completed command ended with an error -/
  err : Bool
  /-- bit 3, `MATCH`: the last completed command was a successful CRC_CHECK whose CRCs were equal -/
  matched : Bool
  /-- bits 15:8: the error code of the last completed command -/
  errCode : Byte
deriving DecidableEq, Repr

/-- The errors of 60_exceptions.md R241, in the table's order. Their codes are `Err.code` in Machine/Flags.lean. -/
inductive Err where
  | trunc | zhdr | zdict | btype | stored | codelen | symbol | dist | adler | len
  | interlace | colortype
  | cmd | addr | overlap | modzero | oplen | range | dcap
  | filter | method | dim
deriving DecidableEq, Repr

/-- Which element of the zlib stream comes next: the state machine of 43_inflate.md R175 (40_command_protocol.md R133 (b)). -/
inductive Phase where
  | header
  | block
  /-- the padding, `LEN` and `NLEN` of a stored block -/
  | storedBody
  | dynCounts
  | dynClLens
  /-- one code-length symbol of the loop of R184 -/
  | codeLengths
  /-- a literal/length code -/
  | litLenCode
  /-- the literal/length symbol `sym`, its code already read (fixed blocks, log 11) -/
  | litLenSymbol
  /-- a distance code -/
  | distCode
  /-- the distance symbol `dsym`, its code already read (fixed blocks, log 11) -/
  | distSymbol
  | trailer
deriving DecidableEq, Repr

/-- The working state of one INFLATE (R42, 43_inflate.md R171). -/
structure Infl where
  /-- `ipos`, the bit cursor (R38) -/
  ipos : Nat
  /-- `out`, newest byte first (log 8) -/
  hist : List Byte
  /-- the count of bytes produced -/
  count : Nat
  /-- the running Adler-32 sums (30_encoding.md R105) -/
  s1 : Nat
  s2 : Nat
  /-- `BFINAL` of the current block -/
  final : Bool
  phase : Phase
  /-- the current block uses the fixed sets (R181) -/
  fixed : Bool
  /-- the counts of the dynamic header (R182) -/
  nlen : Nat
  ndist : Nat
  ncl : Nat
  /-- the code lengths read so far (R184) -/
  lens : List Nat
  /-- the three code sets of the current block -/
  cl : CodeSet
  ll : CodeSet
  dd : CodeSet
  /-- the variables `s`, `length` and `d` of R190 -/
  sym : Nat
  length : Nat
  dsym : Nat
deriving DecidableEq, Repr

/-- The working state of one DEFILTER (R42, 42_defilter.md R158): its derived operands and what it has rebuilt. -/
structure Filt where
  bpp : Nat
  /-- `rb`, the bytes of a row without its filter-type byte (R151) -/
  rowBytes : Nat
  height : Nat
  /-- the row counter -/
  row : Nat
  /-- the rows rebuilt so far, newest first (log 8) -/
  rows : List (List Byte)
deriving DecidableEq, Repr

/-- The working state of the units (R20 (c), R42): none between commands. -/
inductive Engine where
  | idle
  | infl (w : Infl)
  | filt (f : Filt)
deriving DecidableEq, Repr

/-- The host's moves (40_command_protocol.md R120), as accesses on its bus. -/
inductive HostMove where
  /-- `WR`: write `value` to the register at bus address `addr` with an access of `width` bytes (R121, R35) -/
  | regWrite (addr width : Nat) (value : Word)
  /-- `RD` (R122) -/
  | regRead (addr width : Nat)
  /-- `WRB`: write one byte of `BUF` at bus address `addr` (R123, 20_memory.md R64) -/
  | bufWrite (addr : Nat) (b : Byte)
  /-- `RDB` (R123) -/
  | bufRead (addr : Nat)
deriving DecidableEq, Repr

/-- Who moves next (R120; log 5). -/
inductive Turn where
  | host (m : HostMove)
  /-- the engine moves, if it has a move: it completes the issued command in one atomic step (R126) -/
  | engine
  /-- the host polls `STATUS` until `BUSY = 0` (`WAIT`, 30_encoding.md R114): the engine makes its move, if it has one -/
  | wait
  /-- the reset input (70_reset_and_hazards.md R280) -/
  | reset
deriving DecidableEq, Repr

/-- The state of the block (R20), the parameters of the run (00_scope.md R5) and the model's own fields. -/
structure State where
  params : Params
  -- the register file (R21)
  cmd : Word
  status : Status
  src : Word
  slen : Word
  dst : Word
  dcap : Word
  dlen : Word
  icons : Word
  imgW : Word
  imgH : Word
  imgFmt : Word
  crcVal : Word
  adler : Word
  expAddr : Word
  expLen : Word
  modAddr : Word
  modLen : Word
  -- the buffer (R41) and the working state (R42)
  buf : Memory
  engine : Engine
  -- the model's own: the coming moves, what the host has read (newest first), free bytes drawn, resets seen
  turns : List Turn
  reads : List Word
  draws : Nat
  resets : Nat
deriving DecidableEq, Repr

/-- The model's faults. The spec gives the block none: its own errors are completions (60_exceptions.md R240). Both are safe
(the model stops where the spec defines no behaviour) and no step from a coherent state reaches them (log 12). -/
inductive Fault where
  /-- an element of a stream or a filter-type byte is executed while no such command is in flight. Raised by the meanings of
  the elements. -/
  | outsideCommand
  /-- the command in flight names a region that is not inside `BUF`, where `MemRead` and `MemWrite` are not defined
  (00_scope.md R9). Raised by the meanings of the elements and by Machine/Fetch.lean. -/
  | outsideBuffer
deriving DecidableEq, Repr

/-- The refusals. All are safe: the spec puts the move outside itself. -/
inductive Refusal where
  /-- an instruction without a meaning. Raised by no arm of this model. -/
  | notModelled (mnemonic : String)
  /-- a host access to the register file that is not an aligned 32-bit access (10_state.md R35, 93 X1). Raised by the host's
  moves. -/
  | registerAccess
  /-- a host access to `BUF` at an address outside it (20_memory.md R64, 93 X2). Raised by the host's moves. -/
  | bufferAccess
deriving DecidableEq, Repr

/-- `STATUS` after reset: 0x00000000 (R45). -/
def Status.zero : Status :=
  { busy := false, done := false, err := false, matched := false, errCode := 0#8 }

/-- The state after reset (R45, R280): every register 0, `BUF` unspecified (nothing listed), no working state. -/
def State.resetWith (p : Params) : State :=
  { params := p
    cmd := 0#32
    status := Status.zero
    src := 0#32
    slen := 0#32
    dst := 0#32
    dcap := 0#32
    dlen := 0#32
    icons := 0#32
    imgW := 0#32
    imgH := 0#32
    imgFmt := 0#32
    crcVal := 0#32
    adler := 0#32
    expAddr := 0#32
    expLen := 0#32
    modAddr := 0#32
    modLen := 0#32
    buf := []
    engine := .idle
    turns := []
    reads := []
    draws := 0
    resets := 0 }

/-- The machine right after reset, with the parameters of the spec's vectors (log 1) and no move to come (log 9). -/
def State.reset : State :=
  State.resetWith Params.standard

end Sys2Proof.Machine
end

