-- ==== Sys2Proof/Machine/Flags.lean ====
section
/-! DEFINITION. The flags: the fields of `STATUS` (10_state.md R23, R39), what issue and completion do to them
(40_command_protocol.md R124, R127, R128), and the error codes (60_exceptions.md R241). -/

namespace Sys2Proof.Machine

/-- The codes of R241: the class in bits 7:4, the number in bits 3:0. -/
def Err.code : Err → Byte
  | .trunc => 0x10#8
  | .zhdr => 0x11#8
  | .zdict => 0x12#8
  | .btype => 0x13#8
  | .stored => 0x14#8
  | .codelen => 0x15#8
  | .symbol => 0x16#8
  | .dist => 0x17#8
  | .adler => 0x18#8
  | .len => 0x19#8
  | .interlace => 0x20#8
  | .colortype => 0x21#8
  | .cmd => 0x30#8
  | .addr => 0x31#8
  | .overlap => 0x32#8
  | .modzero => 0x33#8
  | .oplen => 0x34#8
  | .range => 0x35#8
  | .dcap => 0x36#8
  | .filter => 0x40#8
  | .method => 0x41#8
  | .dim => 0x42#8

/-- `STATUS` as the 32-bit value a read returns (R23). -/
def Status.word (t : Status) : Word :=
  BitVec.ofNat 32
    (t.busy.toNat + 2 * t.done.toNat + 4 * t.err.toNat + 8 * t.matched.toNat + 256 * t.errCode.toNat)

/-- The flags at issue (R124): `BUSY <- 1`, the others cleared. -/
def Status.issued (_t : Status) : Status :=
  { busy := true, done := false, err := false, matched := false, errCode := 0#8 }

/-- The flags at successful completion (R127): `BUSY <- 0`, `DONE <- 1`, the rest stays. -/
def Status.succeeded (t : Status) : Status :=
  { t with busy := false, done := true }

/-- The flags at completion with an error (R128): `MATCH` stays. -/
def Status.failed (t : Status) (e : Err) : Status :=
  { t with busy := false, done := true, err := true, errCode := e.code }

/-- `STATUS.MATCH <- b` (R144). -/
def Status.setMatch (t : Status) (b : Bool) : Status :=
  { t with matched := b }

end Sys2Proof.Machine
end

