-- ==== Sys2Proof/Machine/Ops.lean ====
section
/-! DEFINITION. The named operations over memory and registers that every meaning uses: `BUF` (00_scope.md R9, 20_memory.md),
issue, completion, error completion (the block's exceptions: 40_command_protocol.md R127, R128, 60_exceptions.md R240) and
reset. The block has no return from an exception (R266): the next issue clears the error. -/

namespace Sys2Proof.Machine

/-! ## BUF -/

/-- The canonical form of `BUF`: addresses strictly rising. An address not listed has no value of its own, so no entry can
equal what an unlisted address reads as, and equal memories are equal lists (log 2). -/
abbrev Memory.wf (m : Memory) : Prop :=
  m.Pairwise fun x y => x.1 < y.1

/-- The byte listed at an address. -/
def Memory.read? : Memory → Nat → Option Byte
  | [], _ => none
  | (a, b) :: m, k => if a = k then some b else Memory.read? m k

/-- The cells of a byte sequence placed at an address. -/
def cellsAt : Nat → List Byte → Memory
  | _, [] => []
  | a, b :: bs => (a, b) :: cellsAt (a + 1) bs

/-- `MemWrite` (R9): put a byte sequence at an address, and change nothing else. -/
def Memory.write (m : Memory) (a : Nat) (bs : List Byte) : Memory :=
  m.filter (fun c => c.1 < a) ++ cellsAt a bs ++ m.filter (fun c => a + bs.length ≤ c.1)

/-- What a byte of `BUF` that nothing has written since reset reads as: unspecified (R45), a free value (log 2). -/
def State.unlistedByte (s : State) (a : Nat) : Byte :=
  Config.resetByte s.resets a

/-- `BUF[a]`. -/
def State.byteAt (s : State) (a : Nat) : Byte :=
  match s.buf.read? a with
  | some b => b
  | none => s.unlistedByte a

/-- `MemRead(a, n)` (R9), lowest address first. Every caller has checked the region. -/
def State.memRead (s : State) : Nat → Nat → List Byte
  | _, 0 => []
  | a, n + 1 => s.byteAt a :: s.memRead (a + 1) n

/-- `MemWrite(a, len(bs), bs)` (R9). Every caller has checked the region. -/
def State.memWrite (s : State) (a : Nat) (bs : List Byte) : State :=
  { s with buf := s.buf.write a bs }

/-! ## Free bytes -/

/-- `n` free bytes, drawn afresh from draw `k` on (93 U2). -/
def freeBytes : Nat → Nat → List Byte
  | _, 0 => []
  | k, n + 1 => Config.freeByte k :: freeBytes (k + 1) n

/-- A region `(addr, len)` of `BUF` (20_memory.md R61). -/
structure Region where
  addr : Nat
  len : Nat
deriving DecidableEq, Repr

/-- Leave every byte of a region unspecified (20_memory.md R76): free bytes, and nothing outside it changes (log 3). -/
def State.scramble (s : State) (r : Region) : State :=
  { s.memWrite r.addr (freeBytes s.draws r.len) with draws := s.draws + r.len }

/-! ## Issue and completion -/

/-- Issue (R124): the word is stored and `BUSY` is set. -/
def State.issue (s : State) (v : Word) : State :=
  { s with cmd := v, status := s.status.issued }

/-- Successful completion (R127), `n` bytes having been written to the destination. The working state does not survive it
(R42). -/
def State.succeed (s : State) (n : Nat) : State :=
  { s with dlen := BitVec.ofNat 32 n, status := s.status.succeeded, engine := .idle }

/-- Taking an exception: completion with an error (R128, R240). Result registers, host-writable registers and `BUF` stay. -/
def State.raise (s : State) (e : Err) : State :=
  { s with dlen := 0#32, status := s.status.failed e, engine := .idle }

/-- The same for an error of the data stage, which leaves the destination region unspecified (R76, R240). -/
def State.raiseData (s : State) (r : Region) (e : Err) : State :=
  (s.scramble r).raise e

/-! ## Reset -/

/-- The reset input (R280, R281): every register 0, `BUF` unspecified, a running command abandoned. The parameters and the
host's side of the model (its coming moves, what it has read) are not the block's and stay. -/
def State.applyReset (s : State) : State :=
  { State.resetWith s.params with turns := s.turns, reads := s.reads, draws := s.draws, resets := s.resets + 1 }

end Sys2Proof.Machine
end

