-- ==== Sys2Proof/Machine/Operands.lean ====
section
/-! DEFINITION. The operands of the commands: every one is a register or a region named by registers (30_encoding.md R90,
20_memory.md R61). Region validity and overlap (R66, R67), bytes per pixel (10_state.md R44), the fields of `IMG_FMT` (R29),
and the register file as the host sees it (R21, R34). -/

namespace Sys2Proof.Machine

/-- A region is valid iff `a + n <= BUF_SIZE`, the sum exact (R66). -/
def Region.valid (r : Region) (bufSize : Nat) : Bool :=
  r.addr + r.len ≤ bufSize

/-- Two regions overlap iff both are non-empty and share a byte (R67). -/
def Region.overlaps (r t : Region) : Bool :=
  0 < r.len && 0 < t.len && r.addr < t.addr + t.len && t.addr < r.addr + r.len

/-- `(SRC, SLEN)` (R24). -/
def State.srcRegion (s : State) : Region := { addr := s.src.toNat, len := s.slen.toNat }

/-- `(SRC, SLEN + 4)`, the region of CRC_CHECK (40_command_protocol.md R130). -/
def State.crcRegion (s : State) : Region := { addr := s.src.toNat, len := s.slen.toNat + 4 }

/-- `(DST, DCAP)` (R25). -/
def State.dstRegion (s : State) : Region := { addr := s.dst.toNat, len := s.dcap.toNat }

/-- `(EXP_ADDR, EXP_LEN)` (R32). -/
def State.expRegion (s : State) : Region := { addr := s.expAddr.toNat, len := s.expLen.toNat }

/-- `(MOD_ADDR, MOD_LEN)` (R33). -/
def State.modRegion (s : State) : Region := { addr := s.modAddr.toNat, len := s.modLen.toNat }

/-- A region lies in `BUF` (R66). -/
def State.holds (s : State) (r : Region) : Bool :=
  r.valid s.params.bufSize

/-- `MemRead` of a whole region. -/
def State.readRegion (s : State) (r : Region) : List Byte :=
  s.memRead r.addr r.len

/-- `BPP(ct)` (R44): none for a colour type without a mapping. -/
def bytesPerPixel (ct : Nat) : Option Nat :=
  match ct with
  | 0 => some 1
  | 2 => some 3
  | 3 => some 1
  | 4 => some 2
  | 6 => some 4
  | _ => none

/-- `IMG_FMT.COLOR_TYPE` (R29). -/
def State.colorType (s : State) : Nat := field s.imgFmt 0 8

/-- `IMG_FMT.COMP_METHOD` (R29). -/
def State.compMethod (s : State) : Nat := field s.imgFmt 8 8

/-- `IMG_FMT.FILTER_METHOD` (R29). -/
def State.filterMethod (s : State) : Nat := field s.imgFmt 16 8

/-- `IMG_FMT.INTERLACE` (R29). -/
def State.interlace (s : State) : Nat := field s.imgFmt 24 8

/-- The length of the filtered scanline stream, `H * (1 + W * bpp)`, exact (R109, R153). -/
def scanlineLength (w h bpp : Nat) : Nat := h * (1 + w * bpp)

/-- The length of the pixel buffer, `H * W * bpp`, exact (R111, R153). -/
def pixelLength (w h bpp : Nat) : Nat := h * w * bpp

/-- `(DST, H * W * bpp)`, the destination of DEFILTER (R130). -/
def State.pixelRegion (s : State) (bpp : Nat) : Region :=
  { addr := s.dst.toNat, len := pixelLength s.imgW.toNat s.imgH.toNat bpp }

/-- The destination region of the command in `CMD` (R130), where it has one. -/
def State.destination? (s : State) : Option Region :=
  match decodeCommand s.cmd with
  | .inflate => some s.dstRegion
  | .modexp => some s.dstRegion
  | .defilter =>
    match bytesPerPixel s.colorType with
    | some bpp => some (s.pixelRegion bpp)
    | none => none
  | _ => none

/-- `RD`: the register of an index, 0 for an unassigned one (R21, R34, R122). -/
def State.register (s : State) (i : Nat) : Word :=
  match i with
  | 0 => s.cmd
  | 1 => s.status.word
  | 2 => s.src
  | 3 => s.slen
  | 4 => s.dst
  | 5 => s.dcap
  | 6 => s.dlen
  | 7 => s.icons
  | 8 => s.imgW
  | 9 => s.imgH
  | 10 => s.imgFmt
  | 11 => s.crcVal
  | 12 => s.adler
  | 13 => s.expAddr
  | 14 => s.expLen
  | 15 => s.modAddr
  | 16 => s.modLen
  | _ => 0#32

/-- A write to a register while `BUSY = 0` (R121): `CMD` issues, a writable register takes the value, a read-only or
unassigned index ignores it. -/
def State.writeIdle (s : State) (i : Nat) (v : Word) : State :=
  match i with
  | 0 => s.issue v
  | 2 => { s with src := v }
  | 3 => { s with slen := v }
  | 4 => { s with dst := v }
  | 5 => { s with dcap := v }
  | 8 => { s with imgW := v }
  | 9 => { s with imgH := v }
  | 10 => { s with imgFmt := v }
  | 11 => { s with crcVal := v }
  | 13 => { s with expAddr := v }
  | 14 => { s with expLen := v }
  | 15 => { s with modAddr := v }
  | 16 => { s with modLen := v }
  | _ => s

/-- `WR` (R121): ignored while `BUSY = 1` (R36, R125). -/
def State.writeRegister (s : State) (i : Nat) (v : Word) : State :=
  if s.status.busy then s else s.writeIdle i v

end Sys2Proof.Machine
end

