-- ==== Sys2Proof/Machine/Protocol.lean ====
section
/-! DEFINITION. The command protocol: NOP (40_command_protocol.md R131) and illegal command words (30_encoding.md R89). -/

namespace Sys2Proof.Machine

/-- What executing an instruction answers. -/
abbrev Result := Host.Outcome State Fault Refusal

/-- NOP (R131): no check after decode, no access; it completes. -/
def execNop (s : State) : Result :=
  .next (s.succeed 0)

/-- An illegal word (R89, R254): `E_CMD` at the decode stage, nothing accessed. -/
def execIllegalCmd (_w : Word) (s : State) : Result :=
  .next (s.raise .cmd)

end Sys2Proof.Machine
end

