-- ==== Sys2Proof/Machine/Crc.lean ====
section
/-! DEFINITION. The CRC unit (41_crc32.md): CRC32, CRC32.CONT and CRC_CHECK. Each is one internal step of
the engine's move (R126); their only error after decode is `E_ADDR`. -/

namespace Sys2Proof.Machine

/-- CRC32 over the source region continued from `c` (R141, R142). -/
def crcFrom (c : Word) (s : State) : Result :=
  if s.holds s.srcRegion then
    .next ({ s with crcVal := crcUpdate c (s.readRegion s.srcRegion) }.succeed 0)
  else .next (s.raise .addr)

/-- CRC32 (R141). -/
def execCrc32 (s : State) : Result :=
  crcFrom 0#32 s

/-- CRC32.CONT (R142): continue from `CRC_VAL`. -/
def execCrc32Cont (s : State) : Result :=
  crcFrom s.crcVal s

/-- The stored CRC of CRC_CHECK: the four bytes after the source region, big-endian (R144, R113). -/
def State.storedCrc (s : State) : Nat :=
  be (s.memRead (s.src.toNat + s.slen.toNat) 4)

/-- CRC_CHECK (R144): a mismatch is no error. -/
def execCrcCheck (s : State) : Result :=
  if s.holds s.crcRegion then
    let c := crcUpdate 0#32 (s.readRegion s.srcRegion)
    .next ({ s with crcVal := c, status := s.status.setMatch (c.toNat == s.storedCrc) }.succeed 0)
  else .next (s.raise .addr)

end Sys2Proof.Machine
end

