-- ==== Sys2Proof/Machine/Filter.lean ====
section
/-! DEFINITION. The FILT unit (42_defilter.md): the predictors, one row, DEFILTER and the filter-type bytes. DEFILTER makes the
checks of its stages 2 to 4 and sets up the working state; each filter-type byte then rebuilds one row in one internal step, and
the last row completes the command (R158; log 6). -/

namespace Sys2Proof.Machine

/-- The five filter kinds (R156). -/
inductive FilterKind where
  | none
  | sub
  | up
  | average
  | paeth
deriving DecidableEq, Repr

/-- `|x - y|` as a natural number. -/
def absDiff (x y : Int) : Nat :=
  (x - y).natAbs

/-- `PaethPredictor(a, b, c)` (R155), computed without wrap-around; ties in the order a, b, c. -/
def paethPredictor (a b c : Nat) : Nat :=
  let p : Int := (a : Int) + b - c
  if absDiff p a ≤ absDiff p b ∧ absDiff p a ≤ absDiff p c then a
  else if absDiff p b ≤ absDiff p c then b
  else c

/-- `pred(kind, a, b, c)` (R156). -/
def predictor (k : FilterKind) (a b c : Byte) : Nat :=
  match k with
  | .none => 0
  | .sub => a.toNat
  | .up => b.toNat
  | .average => (a.toNat + b.toNat) / 2
  | .paeth => paethPredictor a.toNat b.toNat c.toNat

/-- Reconstruction of one byte (R157): modulo 256. -/
def reconByte (k : FilterKind) (x a b c : Byte) : Byte :=
  BitVec.ofNat 8 (x.toNat + predictor k a b c)

/-- The forward direction of one byte (R161): modulo 256. A specification function; no command computes it. -/
def filterByte (k : FilterKind) (o a b c : Byte) : Byte :=
  BitVec.ofNat 8 (o.toNat + 256 - predictor k a b c)

/-- The bytes of one row (R154, R158). `left` holds the bytes of this row rebuilt so far and `aboveLeft` those of the row
above at the same columns, both newest first, so that the byte one pixel to the left is at index `bpp - 1`; `above` is the row
above from the current column on. A neighbour that does not exist is 0. -/
def reconLoop (k : FilterKind) (bpp : Nat) : List Byte → List Byte → List Byte → List Byte → List Byte
  | _, _, _, [] => []
  | left, aboveLeft, above, x :: xs =>
    let r := reconByte k x (left.getD (bpp - 1) 0#8) (above.headD 0#8) (aboveLeft.getD (bpp - 1) 0#8)
    r :: reconLoop k bpp (r :: left) (above.headD 0#8 :: aboveLeft) above.tail xs

/-- One row rebuilt from its raw bytes and the row above (all zeros for row 0). -/
def reconRow (k : FilterKind) (bpp : Nat) (above raw : List Byte) : List Byte :=
  reconLoop k bpp [] [] above raw

/-- The forward direction of a row (R161), the neighbours being the original bytes. -/
def filterLoop (k : FilterKind) (bpp : Nat) : List Byte → List Byte → List Byte → List Byte → List Byte
  | _, _, _, [] => []
  | left, aboveLeft, above, o :: os =>
    filterByte k o (left.getD (bpp - 1) 0#8) (above.headD 0#8) (aboveLeft.getD (bpp - 1) 0#8)
      :: filterLoop k bpp (o :: left) (above.headD 0#8 :: aboveLeft) above.tail os

/-- The encoding of one row without its filter-type byte (R161). -/
def filterRow (k : FilterKind) (bpp : Nat) (above original : List Byte) : List Byte :=
  filterLoop k bpp [] [] above original

/-! ## The command -/

/-- The checks of R152 and R153, in their order: the error, or bytes per pixel. -/
def State.defilterParams (s : State) : Except Err Nat :=
  if s.interlace ≠ 0 then .error .interlace
  else if s.compMethod ≠ 0 ∨ s.filterMethod ≠ 0 then .error .method
  else
    match bytesPerPixel s.colorType with
    | none => .error .colortype
    | some bpp =>
      if s.imgW = 0#32 ∨ s.imgH = 0#32 then .error .dim
      else if s.slen.toNat ≠ scanlineLength s.imgW.toNat s.imgH.toNat bpp then .error .len
      else if s.dcap.toNat < pixelLength s.imgW.toNat s.imgH.toNat bpp then .error .dcap
      else .ok bpp

/-- The working state a DEFILTER starts with (R158). -/
def State.filtStart (s : State) (bpp : Nat) : Filt :=
  { bpp := bpp, rowBytes := s.imgW.toNat * bpp, height := s.imgH.toNat, row := 0, rows := [] }

/-- DEFILTER (R158), up to the first row. -/
def execDefilter (s : State) : Result :=
  match s.defilterParams with
  | .error e => .next (s.raise e)
  | .ok bpp =>
    if !(s.holds s.srcRegion && s.holds (s.pixelRegion bpp)) then .next (s.raise .addr)
    else if (s.pixelRegion bpp).overlaps s.srcRegion then .next (s.raise .overlap)
    else .next { s with engine := .filt (s.filtStart bpp) }

/-! ## The rows -/

/-- The source region of a DEFILTER in flight: `H * (1 + rb)` bytes (R109). -/
def State.filtSource (s : State) (f : Filt) : Region :=
  { addr := s.src.toNat, len := f.height * (1 + f.rowBytes) }

/-- Its destination region: `H * rb` bytes (R130). -/
def State.filtDest (s : State) (f : Filt) : Region :=
  { addr := s.dst.toNat, len := f.height * f.rowBytes }

/-- The address of the filter-type byte of the current row (R109). -/
def State.rowAddr (s : State) (f : Filt) : Nat :=
  s.src.toNat + f.row * (1 + f.rowBytes)

/-- A row of a DEFILTER in flight that lies in its image and in `BUF`; otherwise a model fault (log 12). -/
def defiltering (s : State) (k : Filt → Result) : Result :=
  match s.engine with
  | .filt f =>
    if f.row < f.height && s.holds (s.filtSource f) && s.holds (s.filtDest f) then k f else .fault .outsideBuffer
  | _ => .fault .outsideCommand

/-- The raw bytes of the current row (R109). -/
def State.rawRow (s : State) (f : Filt) : List Byte :=
  s.memRead (s.rowAddr f + 1) f.rowBytes

/-- The row above: the last row rebuilt, zeros for row 0 (R154). -/
def Filt.above (f : Filt) : List Byte :=
  f.rows.headD (List.replicate f.rowBytes 0#8)

/-- The working state after one more row. -/
def Filt.addRow (f : Filt) (row : List Byte) : Filt :=
  { f with row := f.row + 1, rows := row :: f.rows }

/-- The pixel buffer rebuilt so far, in row order (R111). -/
def Filt.pixels (f : Filt) : List Byte :=
  f.rows.reverse.flatten

/-- After a row: the next one, or the write of the pixel buffer and completion (R158). -/
def State.afterRow (s : State) (f : Filt) : State :=
  if f.row < f.height then { s with engine := .filt f }
  else (s.memWrite s.dst.toNat f.pixels).succeed (f.height * f.rowBytes)

/-- Rebuild the current row with one kind (R157, R158). -/
def rebuildRow (k : FilterKind) (s : State) : Result :=
  defiltering s fun f => .next (s.afterRow (f.addRow (reconRow k f.bpp f.above (s.rawRow f))))

/-- Filter-type byte 0, None (R156). -/
def execFilterNone (s : State) : Result :=
  rebuildRow .none s

/-- Filter-type byte 1, Sub (R156). -/
def execFilterSub (s : State) : Result :=
  rebuildRow .sub s

/-- Filter-type byte 2, Up (R156). -/
def execFilterUp (s : State) : Result :=
  rebuildRow .up s

/-- Filter-type byte 3, Average (R156). -/
def execFilterAverage (s : State) : Result :=
  rebuildRow .average s

/-- Filter-type byte 4, Paeth (R155, R156). -/
def execFilterPaeth (s : State) : Result :=
  rebuildRow .paeth s

/-- A filter-type byte above 4 (R159): `E_FILTER`, the destination region unspecified. -/
def execFilterIllegal (_b : Byte) (s : State) : Result :=
  defiltering s fun f => .next (s.raiseData (s.filtDest f) .filter)

end Sys2Proof.Machine
end

