-- ==== Sys2Proof/Machine/Inflate.lean ====
section
/-! DEFINITION. The INFL unit (43_inflate.md): the command INFLATE and the operations its stream elements share. INFLATE makes
the checks of stages 3 and 4 and sets up the working state; each element of the stream is then one internal step (R133 (b);
log 6), and the trailer completes the command. An element's own code and fields have been read, and `ipos` moved past them,
when its meaning runs (Machine/Fetch.lean). -/

namespace Sys2Proof.Machine

/-- The working state an INFLATE starts with (R171, R175). -/
def Infl.start : Infl :=
  { ipos := 0
    hist := []
    count := 0
    s1 := 1
    s2 := 0
    final := false
    phase := .header
    fixed := false
    nlen := 0
    ndist := 0
    ncl := 0
    lens := []
    cl := CodeSet.empty
    ll := CodeSet.empty
    dd := CodeSet.empty
    sym := 0
    length := 0
    dsym := 0 }

/-- INFLATE (R175), up to the zlib header. -/
def execInflate (s : State) : Result :=
  if !(s.holds s.srcRegion && s.holds s.dstRegion) then .next (s.raise .addr)
  else if s.dstRegion.overlaps s.srcRegion then .next (s.raise .overlap)
  else .next { s with engine := .infl Infl.start }

/-- The bytes produced so far, oldest first: `out` (R171). -/
def Infl.out (w : Infl) : List Byte :=
  w.hist.reverse

/-- `emit(b)` (R204): `E_DCAP` if the byte does not fit the capacity. -/
def Infl.emit (cap : Nat) (w : Infl) (b : Byte) : Except Err Infl :=
  if cap < w.count + 1 then .error .dcap
  else
    .ok { w with
      hist := b :: w.hist
      count := w.count + 1
      s1 := (adlerStep (w.s1, w.s2) b).1
      s2 := (adlerStep (w.s1, w.s2) b).2 }

/-- The copy (R203): `n` times the byte `dist` positions before the end of the output as it is then. -/
def copyBack (cap dist : Nat) : Nat → Infl → Except Err Infl
  | 0, w => .ok w
  | n + 1, w =>
    match w.emit cap (w.hist.getD (dist - 1) 0#8) with
    | .ok w' => copyBack cap dist n w'
    | .error e => .error e

/-- The data of a stored block (R180): `n` bytes at the cursor, each read (`E_TRUNC`) before it is emitted (`E_DCAP`). The
cursor is at a byte boundary, where `getbits(8)` is the whole byte (R173). -/
def copyStored (s : State) : Nat → Infl → Except Err Infl
  | 0, w => .ok w
  | n + 1, w =>
    if 8 * s.slen.toNat < w.ipos + 8 then .error .trunc
    else
      match w.emit s.dcap.toNat (s.byteAt (s.src.toNat + w.ipos / 8)) with
      | .ok w' => copyStored s n { w' with ipos := w.ipos + 8 }
      | .error e => .error e

/-- The end of a block (R178): the trailer after the final block, else the next block header. -/
def Infl.endBlock (w : Infl) : Infl :=
  { w with phase := if w.final then .trailer else .block }

/-- The regions of an INFLATE in flight lie in `BUF`. -/
def State.inflRegionsValid (s : State) : Bool :=
  s.holds s.srcRegion && s.holds s.dstRegion

/-- What an element does to the state: the working state it leaves, or its error, which is an error of the data stage (R175,
R209). -/
def State.afterElement (s : State) (r : Except Err Infl) : State :=
  match r with
  | .ok w => { s with engine := .infl w }
  | .error e => s.raiseData s.dstRegion e

/-- An element of the stream of the INFLATE in flight; without one, a model fault (log 12). -/
def inflating (s : State) (k : Infl → Except Err Infl) : Result :=
  match s.engine with
  | .infl w => if s.inflRegionsValid then .next (s.afterElement (k w)) else .fault .outsideBuffer
  | _ => .fault .outsideCommand

end Sys2Proof.Machine
end

