-- ==== Sys2Proof/Machine/InflateBlocks.lean ====
section
/-! DEFINITION. The stream's frame (43_inflate.md): the zlib header (R176, R177), the block headers (R178, R179), the stored
block (R180) and the trailer (R205 to R208). -/

namespace Sys2Proof.Machine

/-- `CMF * 256 + FLG` of a header with `CM = 8` (R92). -/
def headerValue (cinfo : BitVec 4) (flevel : BitVec 2) (fdict : Bool) (fcheck : BitVec 5) : Nat :=
  (cinfo.toNat * 16 + 8) * 256 + (flevel.toNat * 64 + fdict.toNat * 32 + fcheck.toNat)

/-- The zlib header (R176, R177): `E_ZHDR`, then `E_ZDICT`. `CINFO` and `FLEVEL` have no further effect (R108). -/
def execZlibHeader (cinfo : BitVec 4) (flevel : BitVec 2) (fdict : Bool) (fcheck : BitVec 5) (s : State) : Result :=
  inflating s fun w =>
    if 7 < cinfo.toNat ∨ headerValue cinfo flevel fdict fcheck % 31 ≠ 0 then .error .zhdr
    else if fdict then .error .zdict
    else .ok { w with phase := .block }

/-- `BTYPE = 0` (R178, R180): the stored body follows. -/
def execBlockStored (final : Bool) (s : State) : Result :=
  inflating s fun w => .ok { w with final := final, phase := .storedBody }

/-- `BTYPE = 1` (R181): the fixed sets, then symbols. -/
def execBlockFixed (final : Bool) (s : State) : Result :=
  inflating s fun w =>
    .ok { w with
      final := final
      fixed := true
      ll := buildCodes fixedLitLenLens
      dd := buildCodes fixedDistLens
      phase := .litLenCode }

/-- `BTYPE = 2` (R182): the counts of the dynamic header follow. -/
def execBlockDynamic (final : Bool) (s : State) : Result :=
  inflating s fun w => .ok { w with final := final, fixed := false, phase := .dynCounts }

/-- `BTYPE = 3` (R179): `E_BTYPE`. -/
def execBlockReserved (_final : Bool) (s : State) : Result :=
  inflating s fun _ => .error .btype

/-- The body of a stored block (R180): `E_STORED` unless `NLEN = LEN xor 0xFFFF`, then the data. -/
def execStoredLen (len nlen : BitVec 16) (s : State) : Result :=
  inflating s fun w =>
    if nlen ≠ len ^^^ 0xFFFF#16 then .error .stored
    else
      match copyStored s len.toNat w with
      | .ok w' => .ok w'.endBlock
      | .error e => .error e

/-- Success of INFLATE (R175, R208): the output to the destination, `ICONS`, `ADLER`, completion. -/
def State.inflateDone (s : State) (w : Infl) : State :=
  { s.memWrite s.dst.toNat w.out with
    icons := BitVec.ofNat 32 (w.ipos / 8)
    adler := BitVec.ofNat 32 (adlerValue w.s1 w.s2) }.succeed w.count

/-- The trailer (R205, R206): `E_ADLER` unless it equals the checksum of the output. -/
def execZlibTrailer (stored : Word) (s : State) : Result :=
  match s.engine with
  | .infl w =>
    if s.inflRegionsValid then
      if stored.toNat = adlerValue w.s1 w.s2 then .next (s.inflateDone w)
      else .next (s.raiseData s.dstRegion .adler)
    else .fault .outsideBuffer
  | _ => .fault .outsideCommand

end Sys2Proof.Machine
end

