-- ==== Sys2Proof/Machine/InflateDynamic.lean ====
section
/-! DEFINITION. The header of a dynamic block (43_inflate.md R182 to R185, 30_encoding.md R102 to R104). -/

namespace Sys2Proof.Machine

/-- The order in which the code-length-code lengths stand (R102, R183). -/
def clOrder : List Nat :=
  [16, 17, 18, 0, 8, 7, 9, 6, 10, 5, 11, 4, 12, 3, 13, 2, 14, 1, 15]

/-- `cl[ORDER[i]] <- field i`, every other entry 0 (R183). -/
def placeLens : List Nat → List Nat → List Nat → List Nat
  | _, [], cl => cl
  | [], _, cl => cl
  | o :: os, v :: vs, cl => placeLens os vs (cl.set o v)

/-- The 19 lengths of the code-length code (R183). -/
def clLengths (fields : List Nat) : List Nat :=
  placeLens clOrder fields (List.replicate 19 0)

/-- The counts (R182): all three fields are read before the check. -/
def execDynCounts (hlit hdist : BitVec 5) (hclen : BitVec 4) (s : State) : Result :=
  inflating s fun w =>
    if 286 < hlit.toNat + 257 ∨ 30 < hdist.toNat + 1 then .error .codelen
    else
      .ok { w with
        nlen := hlit.toNat + 257
        ndist := hdist.toNat + 1
        ncl := hclen.toNat + 4
        phase := .dynClLens }

/-- The code-length code (R183): it must be complete. -/
def execDynClLens (fields : List (BitVec 3)) (s : State) : Result :=
  inflating s fun w =>
    if kraft (clLengths (fields.map (·.toNat))) ≠ 2 ^ Config.maxBits then .error .codelen
    else .ok { w with cl := buildCodes (clLengths (fields.map (·.toNat))), lens := [], phase := .codeLengths }

/-- Part 4 of the dynamic header (R185): the end-of-block code, the literal/length set, the distance set. -/
def Infl.finishLengths (w : Infl) : Except Err Infl :=
  if w.lens.getD 256 0 = 0 then .error .codelen
  else if !acceptableSet (w.lens.take w.nlen) false then .error .codelen
  else if !acceptableSet (w.lens.drop w.nlen) true then .error .codelen
  else
    .ok { w with
      ll := buildCodes (w.lens.take w.nlen)
      dd := buildCodes (w.lens.drop w.nlen)
      phase := .litLenCode }

/-- `n` copies of the length `v` (R184): `E_CODELEN` past `nlen + ndist`; when all lengths are there, R185. -/
def Infl.addLengths (w : Infl) (n v : Nat) : Except Err Infl :=
  let w' := { w with lens := w.lens ++ List.replicate n v }
  if w.nlen + w.ndist < w'.lens.length then .error .codelen
  else if w'.lens.length = w.nlen + w.ndist then w'.finishLengths
  else .ok w'

/-- Code-length symbol 0 to 15 (R184). -/
def execClLen0To15 (len : BitVec 4) (s : State) : Result :=
  inflating s fun w => w.addLengths 1 len.toNat

/-- Code-length symbol 16 (R184): `E_CODELEN` with nothing to repeat. -/
def execClRepeatPrev (extra : BitVec 2) (s : State) : Result :=
  inflating s fun w =>
    match w.lens.getLast? with
    | none => .error .codelen
    | some v => w.addLengths (3 + extra.toNat) v

/-- Code-length symbol 17 (R184). -/
def execClZeros3To10 (extra : BitVec 3) (s : State) : Result :=
  inflating s fun w => w.addLengths (3 + extra.toNat) 0

/-- Code-length symbol 18 (R184). -/
def execClZeros11To138 (extra : BitVec 7) (s : State) : Result :=
  inflating s fun w => w.addLengths (11 + extra.toNat) 0

end Sys2Proof.Machine
end

