-- ==== Sys2Proof/Machine/InflateSymbols.lean ====
section
/-! DEFINITION. The body of a compressed block (43_inflate.md R190): the codes of the fixed sets (30_encoding.md R97, R98), the
literal/length symbols (R191 to R199) and the distance symbols with the copy (R200 to R203). -/

namespace Sys2Proof.Machine

/-! ## The fixed codes -/

/-- A code of the fixed literal/length set has been read: its symbol comes next (R97, R190). -/
def fixedSymbol (sym : Nat) (s : State) : Result :=
  inflating s fun w => .ok { w with sym := sym, phase := .litLenSymbol }

/-- Codes `00110000` to `10111111`: symbols 0 to 143 (R97). -/
def execFixedLl0To143 (code : BitVec 8) (s : State) : Result :=
  fixedSymbol (code.toNat - 0x30) s

/-- Codes `110010000` to `111111111`: symbols 144 to 255 (R97). -/
def execFixedLl144To255 (code : BitVec 9) (s : State) : Result :=
  fixedSymbol (144 + (code.toNat - 0x190)) s

/-- Codes `0000000` to `0010111`: symbols 256 to 279 (R97). -/
def execFixedLl256To279 (code : BitVec 7) (s : State) : Result :=
  fixedSymbol (256 + code.toNat) s

/-- Codes `11000000` to `11000111`: symbols 280 to 287 (R97). -/
def execFixedLl280To287 (code : BitVec 8) (s : State) : Result :=
  fixedSymbol (280 + (code.toNat - 0xC0)) s

/-- The fixed distance code: the symbol is the code (R98). -/
def execFixedDist0To31 (code : BitVec 5) (s : State) : Result :=
  inflating s fun w => .ok { w with dsym := code.toNat, phase := .distSymbol }

/-! ## Literal/length symbols -/

/-- Symbols 0 to 255: the byte is emitted (R191). -/
def execLiteral (b : Byte) (s : State) : Result :=
  inflating s fun w =>
    match w.emit s.dcap.toNat b with
    | .ok w' => .ok { w' with phase := .litLenCode }
    | .error e => .error e

/-- Symbol 256: the end of the block (R192). -/
def execEndOfBlock (s : State) : Result :=
  inflating s fun w => .ok w.endBlock

/-- A length symbol (R193): the match length is known, a distance code follows. -/
def lengthSymbol (length : Nat) (s : State) : Result :=
  inflating s fun w => .ok { w with length := length, phase := .distCode }

/-- Length symbol 257: 3 (R100). -/
def execLen257 (s : State) : Result :=
  lengthSymbol 3 s

/-- Length symbol 258: 4 (R100). -/
def execLen258 (s : State) : Result :=
  lengthSymbol 4 s

/-- Length symbol 259: 5 (R100). -/
def execLen259 (s : State) : Result :=
  lengthSymbol 5 s

/-- Length symbol 260: 6 (R100). -/
def execLen260 (s : State) : Result :=
  lengthSymbol 6 s

/-- Length symbol 261: 7 (R100). -/
def execLen261 (s : State) : Result :=
  lengthSymbol 7 s

/-- Length symbol 262: 8 (R100). -/
def execLen262 (s : State) : Result :=
  lengthSymbol 8 s

/-- Length symbol 263: 9 (R100). -/
def execLen263 (s : State) : Result :=
  lengthSymbol 9 s

/-- Length symbol 264: 10 (R100). -/
def execLen264 (s : State) : Result :=
  lengthSymbol 10 s

/-- Length symbol 265: 11 plus 1 extra bit (R100). -/
def execLen265 (e : BitVec 1) (s : State) : Result :=
  lengthSymbol (11 + e.toNat) s

/-- Length symbol 266: 13 plus 1 extra bit (R100). -/
def execLen266 (e : BitVec 1) (s : State) : Result :=
  lengthSymbol (13 + e.toNat) s

/-- Length symbol 267: 15 plus 1 extra bit (R100). -/
def execLen267 (e : BitVec 1) (s : State) : Result :=
  lengthSymbol (15 + e.toNat) s

/-- Length symbol 268: 17 plus 1 extra bit (R100). -/
def execLen268 (e : BitVec 1) (s : State) : Result :=
  lengthSymbol (17 + e.toNat) s

/-- Length symbol 269: 19 plus 2 extra bits (R100). -/
def execLen269 (e : BitVec 2) (s : State) : Result :=
  lengthSymbol (19 + e.toNat) s

/-- Length symbol 270: 23 plus 2 extra bits (R100). -/
def execLen270 (e : BitVec 2) (s : State) : Result :=
  lengthSymbol (23 + e.toNat) s

/-- Length symbol 271: 27 plus 2 extra bits (R100). -/
def execLen271 (e : BitVec 2) (s : State) : Result :=
  lengthSymbol (27 + e.toNat) s

/-- Length symbol 272: 31 plus 2 extra bits (R100). -/
def execLen272 (e : BitVec 2) (s : State) : Result :=
  lengthSymbol (31 + e.toNat) s

/-- Length symbol 273: 35 plus 3 extra bits (R100). -/
def execLen273 (e : BitVec 3) (s : State) : Result :=
  lengthSymbol (35 + e.toNat) s

/-- Length symbol 274: 43 plus 3 extra bits (R100). -/
def execLen274 (e : BitVec 3) (s : State) : Result :=
  lengthSymbol (43 + e.toNat) s

/-- Length symbol 275: 51 plus 3 extra bits (R100). -/
def execLen275 (e : BitVec 3) (s : State) : Result :=
  lengthSymbol (51 + e.toNat) s

/-- Length symbol 276: 59 plus 3 extra bits (R100). -/
def execLen276 (e : BitVec 3) (s : State) : Result :=
  lengthSymbol (59 + e.toNat) s

/-- Length symbol 277: 67 plus 4 extra bits (R100). -/
def execLen277 (e : BitVec 4) (s : State) : Result :=
  lengthSymbol (67 + e.toNat) s

/-- Length symbol 278: 83 plus 4 extra bits (R100). -/
def execLen278 (e : BitVec 4) (s : State) : Result :=
  lengthSymbol (83 + e.toNat) s

/-- Length symbol 279: 99 plus 4 extra bits (R100). -/
def execLen279 (e : BitVec 4) (s : State) : Result :=
  lengthSymbol (99 + e.toNat) s

/-- Length symbol 280: 115 plus 4 extra bits (R100). -/
def execLen280 (e : BitVec 4) (s : State) : Result :=
  lengthSymbol (115 + e.toNat) s

/-- Length symbol 281: 131 plus 5 extra bits (R100). -/
def execLen281 (e : BitVec 5) (s : State) : Result :=
  lengthSymbol (131 + e.toNat) s

/-- Length symbol 282: 163 plus 5 extra bits (R100). -/
def execLen282 (e : BitVec 5) (s : State) : Result :=
  lengthSymbol (163 + e.toNat) s

/-- Length symbol 283: 195 plus 5 extra bits (R100). -/
def execLen283 (e : BitVec 5) (s : State) : Result :=
  lengthSymbol (195 + e.toNat) s

/-- Length symbol 284: 227 plus 5 extra bits (R100). -/
def execLen284 (e : BitVec 5) (s : State) : Result :=
  lengthSymbol (227 + e.toNat) s

/-- Length symbol 285: 258 (R100). -/
def execLen285 (s : State) : Result :=
  lengthSymbol 258 s

/-- Symbols 286 and 287: `E_SYMBOL` (R199). -/
def execLl286To287 (_odd : Bool) (s : State) : Result :=
  inflating s fun _ => .error .symbol

/-! ## Distance symbols -/

/-- A distance symbol (R190): `E_DIST` beyond the bytes output so far (R202), else the copy (R203) and the next symbol. -/
def distanceSymbol (dist : Nat) (s : State) : Result :=
  inflating s fun w =>
    if w.count < dist then .error .dist
    else
      match copyBack s.dcap.toNat dist w.length w with
      | .ok w' => .ok { w' with phase := .litLenCode }
      | .error e => .error e

/-- Distance symbol 0: 1 (R101). -/
def execDist0 (s : State) : Result :=
  distanceSymbol 1 s

/-- Distance symbol 1: 2 (R101). -/
def execDist1 (s : State) : Result :=
  distanceSymbol 2 s

/-- Distance symbol 2: 3 (R101). -/
def execDist2 (s : State) : Result :=
  distanceSymbol 3 s

/-- Distance symbol 3: 4 (R101). -/
def execDist3 (s : State) : Result :=
  distanceSymbol 4 s

/-- Distance symbol 4: 5 plus 1 extra bit (R101). -/
def execDist4 (e : BitVec 1) (s : State) : Result :=
  distanceSymbol (5 + e.toNat) s

/-- Distance symbol 5: 7 plus 1 extra bit (R101). -/
def execDist5 (e : BitVec 1) (s : State) : Result :=
  distanceSymbol (7 + e.toNat) s

/-- Distance symbol 6: 9 plus 2 extra bits (R101). -/
def execDist6 (e : BitVec 2) (s : State) : Result :=
  distanceSymbol (9 + e.toNat) s

/-- Distance symbol 7: 13 plus 2 extra bits (R101). -/
def execDist7 (e : BitVec 2) (s : State) : Result :=
  distanceSymbol (13 + e.toNat) s

/-- Distance symbol 8: 17 plus 3 extra bits (R101). -/
def execDist8 (e : BitVec 3) (s : State) : Result :=
  distanceSymbol (17 + e.toNat) s

/-- Distance symbol 9: 25 plus 3 extra bits (R101). -/
def execDist9 (e : BitVec 3) (s : State) : Result :=
  distanceSymbol (25 + e.toNat) s

/-- Distance symbol 10: 33 plus 4 extra bits (R101). -/
def execDist10 (e : BitVec 4) (s : State) : Result :=
  distanceSymbol (33 + e.toNat) s

/-- Distance symbol 11: 49 plus 4 extra bits (R101). -/
def execDist11 (e : BitVec 4) (s : State) : Result :=
  distanceSymbol (49 + e.toNat) s

/-- Distance symbol 12: 65 plus 5 extra bits (R101). -/
def execDist12 (e : BitVec 5) (s : State) : Result :=
  distanceSymbol (65 + e.toNat) s

/-- Distance symbol 13: 97 plus 5 extra bits (R101). -/
def execDist13 (e : BitVec 5) (s : State) : Result :=
  distanceSymbol (97 + e.toNat) s

/-- Distance symbol 14: 129 plus 6 extra bits (R101). -/
def execDist14 (e : BitVec 6) (s : State) : Result :=
  distanceSymbol (129 + e.toNat) s

/-- Distance symbol 15: 193 plus 6 extra bits (R101). -/
def execDist15 (e : BitVec 6) (s : State) : Result :=
  distanceSymbol (193 + e.toNat) s

/-- Distance symbol 16: 257 plus 7 extra bits (R101). -/
def execDist16 (e : BitVec 7) (s : State) : Result :=
  distanceSymbol (257 + e.toNat) s

/-- Distance symbol 17: 385 plus 7 extra bits (R101). -/
def execDist17 (e : BitVec 7) (s : State) : Result :=
  distanceSymbol (385 + e.toNat) s

/-- Distance symbol 18: 513 plus 8 extra bits (R101). -/
def execDist18 (e : BitVec 8) (s : State) : Result :=
  distanceSymbol (513 + e.toNat) s

/-- Distance symbol 19: 769 plus 8 extra bits (R101). -/
def execDist19 (e : BitVec 8) (s : State) : Result :=
  distanceSymbol (769 + e.toNat) s

/-- Distance symbol 20: 1025 plus 9 extra bits (R101). -/
def execDist20 (e : BitVec 9) (s : State) : Result :=
  distanceSymbol (1025 + e.toNat) s

/-- Distance symbol 21: 1537 plus 9 extra bits (R101). -/
def execDist21 (e : BitVec 9) (s : State) : Result :=
  distanceSymbol (1537 + e.toNat) s

/-- Distance symbol 22: 2049 plus 10 extra bits (R101). -/
def execDist22 (e : BitVec 10) (s : State) : Result :=
  distanceSymbol (2049 + e.toNat) s

/-- Distance symbol 23: 3073 plus 10 extra bits (R101). -/
def execDist23 (e : BitVec 10) (s : State) : Result :=
  distanceSymbol (3073 + e.toNat) s

/-- Distance symbol 24: 4097 plus 11 extra bits (R101). -/
def execDist24 (e : BitVec 11) (s : State) : Result :=
  distanceSymbol (4097 + e.toNat) s

/-- Distance symbol 25: 6145 plus 11 extra bits (R101). -/
def execDist25 (e : BitVec 11) (s : State) : Result :=
  distanceSymbol (6145 + e.toNat) s

/-- Distance symbol 26: 8193 plus 12 extra bits (R101). -/
def execDist26 (e : BitVec 12) (s : State) : Result :=
  distanceSymbol (8193 + e.toNat) s

/-- Distance symbol 27: 12289 plus 12 extra bits (R101). -/
def execDist27 (e : BitVec 12) (s : State) : Result :=
  distanceSymbol (12289 + e.toNat) s

/-- Distance symbol 28: 16385 plus 13 extra bits (R101). -/
def execDist28 (e : BitVec 13) (s : State) : Result :=
  distanceSymbol (16385 + e.toNat) s

/-- Distance symbol 29: 24577 plus 13 extra bits (R101). -/
def execDist29 (e : BitVec 13) (s : State) : Result :=
  distanceSymbol (24577 + e.toNat) s

/-- Distance symbols 30 and 31: `E_SYMBOL` (R201). -/
def execDist30To31 (_odd : Bool) (s : State) : Result :=
  inflating s fun _ => .error .symbol

end Sys2Proof.Machine
end

