-- ==== Sys2Proof/Machine/Modexp.lean ====
section
/-! DEFINITION. The MEXP unit (44_modexp.md): MODEXP, one internal step of the engine's move (R126). -/

namespace Sys2Proof.Machine

/-- `bitlen(k)` (R225). -/
def bitLength (k : Nat) : Nat :=
  if k = 0 then 0 else Nat.log2 k + 1

/-- The loop of R225 over the bits `i - 1` down to 0 of the exponent. -/
def modexpLoop (k b n : Nat) : Nat → Nat → Nat
  | 0, r => r
  | i + 1, r => modexpLoop k b n i (if k.testBit i then r * r % n * b % n else r * r % n)

/-- `modexp(m, k, n)` for `n >= 1` (R225). -/
def modexp (m k n : Nat) : Nat :=
  modexpLoop k (m % n) n (bitLength k) (1 % n)

/-- The base, exponent and modulus as big-endian integers (R222, R112). -/
def State.base (s : State) : Nat := be (s.readRegion s.srcRegion)

/-- The exponent (R222). -/
def State.exponent (s : State) : Nat := be (s.readRegion s.expRegion)

/-- The modulus (R222). -/
def State.modulus (s : State) : Nat := be (s.readRegion s.modRegion)

/-- One of the four lengths exceeds `MAXOP` (R224). -/
def State.operandTooLong (s : State) : Bool :=
  s.params.maxOp < s.slen.toNat || s.params.maxOp < s.expLen.toNat || s.params.maxOp < s.modLen.toNat
    || s.params.maxOp < s.dcap.toNat

/-- The four regions are valid (R130). -/
def State.modexpRegionsValid (s : State) : Bool :=
  s.holds s.srcRegion && s.holds s.expRegion && s.holds s.modRegion && s.holds s.dstRegion

/-- The destination overlaps a source (R67, R130). -/
def State.modexpOverlap (s : State) : Bool :=
  s.dstRegion.overlaps s.srcRegion || s.dstRegion.overlaps s.expRegion || s.dstRegion.overlaps s.modRegion

/-- The data stage of MODEXP (R228): `E_MODZERO` (R226), the result, `E_RANGE` (R227), the write. -/
def modexpData (s : State) : Result :=
  if s.modulus = 0 then .next (s.raiseData s.dstRegion .modzero)
  else
    let r := modexp s.base s.exponent s.modulus
    if 256 ^ s.dcap.toNat ≤ r then .next (s.raiseData s.dstRegion .range)
    else .next ((s.memWrite s.dst.toNat (serBe s.dcap.toNat r)).succeed s.dcap.toNat)

/-- MODEXP (R228): `E_OPLEN`, `E_ADDR`, `E_OVERLAP`, then the data stage. -/
def execModexp (s : State) : Result :=
  if s.operandTooLong then .next (s.raise .oplen)
  else if !s.modexpRegionsValid then .next (s.raise .addr)
  else if s.modexpOverlap then .next (s.raise .overlap)
  else modexpData s

end Sys2Proof.Machine
end

