-- ==== Sys2Proof/Machine/Dispatch.lean ====
section
/-! DEFINITION. One arm for every row of spec/opcode_table.json, each one call of the instruction's meaning. -/

namespace Sys2Proof.Machine

def exec (i : Instr) (s : State) : Host.Outcome State Fault Refusal :=
  match i with
  | .nop => Sys2Proof.Machine.execNop s
  | .crc32 => Sys2Proof.Machine.execCrc32 s
  | .crc32Cont => Sys2Proof.Machine.execCrc32Cont s
  | .crcCheck => Sys2Proof.Machine.execCrcCheck s
  | .defilter => Sys2Proof.Machine.execDefilter s
  | .inflate => Sys2Proof.Machine.execInflate s
  | .modexp => Sys2Proof.Machine.execModexp s
  | .illegalCmd w => Sys2Proof.Machine.execIllegalCmd w s
  | .zlibHeader cinfo flevel fdict fcheck => Sys2Proof.Machine.execZlibHeader cinfo flevel fdict fcheck s
  | .blockStored final => Sys2Proof.Machine.execBlockStored final s
  | .blockFixed final => Sys2Proof.Machine.execBlockFixed final s
  | .blockDynamic final => Sys2Proof.Machine.execBlockDynamic final s
  | .blockReserved final => Sys2Proof.Machine.execBlockReserved final s
  | .storedLen len nlen => Sys2Proof.Machine.execStoredLen len nlen s
  | .dynCounts hlit hdist hclen => Sys2Proof.Machine.execDynCounts hlit hdist hclen s
  | .dynClLens lens => Sys2Proof.Machine.execDynClLens lens s
  | .clLen0To15 len => Sys2Proof.Machine.execClLen0To15 len s
  | .clRepeatPrev extra => Sys2Proof.Machine.execClRepeatPrev extra s
  | .clZeros3To10 extra => Sys2Proof.Machine.execClZeros3To10 extra s
  | .clZeros11To138 extra => Sys2Proof.Machine.execClZeros11To138 extra s
  | .fixedLl0To143 code => Sys2Proof.Machine.execFixedLl0To143 code s
  | .fixedLl144To255 code => Sys2Proof.Machine.execFixedLl144To255 code s
  | .fixedLl256To279 code => Sys2Proof.Machine.execFixedLl256To279 code s
  | .fixedLl280To287 code => Sys2Proof.Machine.execFixedLl280To287 code s
  | .fixedDist0To31 code => Sys2Proof.Machine.execFixedDist0To31 code s
  | .literal b => Sys2Proof.Machine.execLiteral b s
  | .endOfBlock => Sys2Proof.Machine.execEndOfBlock s
  | .len257 => Sys2Proof.Machine.execLen257 s
  | .len258 => Sys2Proof.Machine.execLen258 s
  | .len259 => Sys2Proof.Machine.execLen259 s
  | .len260 => Sys2Proof.Machine.execLen260 s
  | .len261 => Sys2Proof.Machine.execLen261 s
  | .len262 => Sys2Proof.Machine.execLen262 s
  | .len263 => Sys2Proof.Machine.execLen263 s
  | .len264 => Sys2Proof.Machine.execLen264 s
  | .len265 e => Sys2Proof.Machine.execLen265 e s
  | .len266 e => Sys2Proof.Machine.execLen266 e s
  | .len267 e => Sys2Proof.Machine.execLen267 e s
  | .len268 e => Sys2Proof.Machine.execLen268 e s
  | .len269 e => Sys2Proof.Machine.execLen269 e s
  | .len270 e => Sys2Proof.Machine.execLen270 e s
  | .len271 e => Sys2Proof.Machine.execLen271 e s
  | .len272 e => Sys2Proof.Machine.execLen272 e s
  | .len273 e => Sys2Proof.Machine.execLen273 e s
  | .len274 e => Sys2Proof.Machine.execLen274 e s
  | .len275 e => Sys2Proof.Machine.execLen275 e s
  | .len276 e => Sys2Proof.Machine.execLen276 e s
  | .len277 e => Sys2Proof.Machine.execLen277 e s
  | .len278 e => Sys2Proof.Machine.execLen278 e s
  | .len279 e => Sys2Proof.Machine.execLen279 e s
  | .len280 e => Sys2Proof.Machine.execLen280 e s
  | .len281 e => Sys2Proof.Machine.execLen281 e s
  | .len282 e => Sys2Proof.Machine.execLen282 e s
  | .len283 e => Sys2Proof.Machine.execLen283 e s
  | .len284 e => Sys2Proof.Machine.execLen284 e s
  | .len285 => Sys2Proof.Machine.execLen285 s
  | .ll286To287 odd => Sys2Proof.Machine.execLl286To287 odd s
  | .dist0 => Sys2Proof.Machine.execDist0 s
  | .dist1 => Sys2Proof.Machine.execDist1 s
  | .dist2 => Sys2Proof.Machine.execDist2 s
  | .dist3 => Sys2Proof.Machine.execDist3 s
  | .dist4 e => Sys2Proof.Machine.execDist4 e s
  | .dist5 e => Sys2Proof.Machine.execDist5 e s
  | .dist6 e => Sys2Proof.Machine.execDist6 e s
  | .dist7 e => Sys2Proof.Machine.execDist7 e s
  | .dist8 e => Sys2Proof.Machine.execDist8 e s
  | .dist9 e => Sys2Proof.Machine.execDist9 e s
  | .dist10 e => Sys2Proof.Machine.execDist10 e s
  | .dist11 e => Sys2Proof.Machine.execDist11 e s
  | .dist12 e => Sys2Proof.Machine.execDist12 e s
  | .dist13 e => Sys2Proof.Machine.execDist13 e s
  | .dist14 e => Sys2Proof.Machine.execDist14 e s
  | .dist15 e => Sys2Proof.Machine.execDist15 e s
  | .dist16 e => Sys2Proof.Machine.execDist16 e s
  | .dist17 e => Sys2Proof.Machine.execDist17 e s
  | .dist18 e => Sys2Proof.Machine.execDist18 e s
  | .dist19 e => Sys2Proof.Machine.execDist19 e s
  | .dist20 e => Sys2Proof.Machine.execDist20 e s
  | .dist21 e => Sys2Proof.Machine.execDist21 e s
  | .dist22 e => Sys2Proof.Machine.execDist22 e s
  | .dist23 e => Sys2Proof.Machine.execDist23 e s
  | .dist24 e => Sys2Proof.Machine.execDist24 e s
  | .dist25 e => Sys2Proof.Machine.execDist25 e s
  | .dist26 e => Sys2Proof.Machine.execDist26 e s
  | .dist27 e => Sys2Proof.Machine.execDist27 e s
  | .dist28 e => Sys2Proof.Machine.execDist28 e s
  | .dist29 e => Sys2Proof.Machine.execDist29 e s
  | .dist30To31 odd => Sys2Proof.Machine.execDist30To31 odd s
  | .zlibTrailer adler => Sys2Proof.Machine.execZlibTrailer adler s
  | .filterNone => Sys2Proof.Machine.execFilterNone s
  | .filterSub => Sys2Proof.Machine.execFilterSub s
  | .filterUp => Sys2Proof.Machine.execFilterUp s
  | .filterAverage => Sys2Proof.Machine.execFilterAverage s
  | .filterPaeth => Sys2Proof.Machine.execFilterPaeth s
  | .filterIllegal b => Sys2Proof.Machine.execFilterIllegal b s

end Sys2Proof.Machine
end

