-- ==== Sys2Proof/Machine/Fetch.lean ====
section
/-! DEFINITION. What the engine executes next (40_command_protocol.md R126, R133): the issued command word; while an INFLATE
is in flight the stream element at the bit cursor; while a DEFILTER is in flight the filter-type byte of the current row. Also
how one instruction is placed there. -/

namespace Sys2Proof.Machine

/-- The error INFLATE reports for bits that are no element (43_inflate.md R172, R174, R176, R184). -/
def Reject.err : Reject → Err
  | .truncated => .trunc
  | .notDeflate => .zhdr
  | .noCode => .symbol
  | .nothingToRepeat => .codelen
  | .outsideAlphabet => .symbol

/-- What was fetched. -/
inductive Fetched where
  /-- run `i` on `s`, whose cursor has moved past it -/
  | run (i : Instr) (s : State)
  /-- the bits at the cursor are no element: the command has completed with its error -/
  | complete (s : State)
  | fault (r : Fault)
deriving DecidableEq, Repr

/-- How many bits of the source region are looked at: no element is longer (the longest is 19 fields of 3 bits). -/
def windowBits : Nat := 64

/-- The bits from the cursor on, at most `windowBits` and never past the end of the source region (R171, R172). -/
def State.window (s : State) (ipos : Nat) : Bits :=
  ((streamBits (s.memRead (s.src.toNat + ipos / 8) (min 9 (s.slen.toNat - ipos / 8)))).drop (ipos % 8)).take windowBits

/-- Skip the padding before an element that starts at a byte boundary (R173, R180, R205). It ends at or before the end of the
source region. -/
def skipPadding (ipos : Nat) (bs : Bits) : Bits :=
  bs.drop (padding ipos)

/-- A code-length symbol (R184): symbol 16 with nothing before it is found before its extra bits are read. -/
def decodeCodeLength (t : CodeSet) (first : Bool) (bs : Bits) : Except Reject (Instr × Bits) :=
  match huffmanDecode t bs with
  | .error e => .error e
  | .ok (s, rest) => if first && s == 16 then .error .nothingToRepeat else decodeClSymbol s rest

/-- A literal/length symbol of a dynamic block: its code, then its extra bits (R174, R193). -/
def decodeLitLen (t : CodeSet) (bs : Bits) : Except Reject (Instr × Bits) :=
  match huffmanDecode t bs with
  | .error e => .error e
  | .ok (s, rest) => decodeLitLenSymbol s rest

/-- A distance symbol of a dynamic block (R200). -/
def decodeDist (t : CodeSet) (bs : Bits) : Except Reject (Instr × Bits) :=
  match huffmanDecode t bs with
  | .error e => .error e
  | .ok (d, rest) => decodeDistSymbol d rest

/-- The element at the cursor, by the phase of the state machine (R133 (b), R175). -/
def Infl.decodeNext (w : Infl) (bs : Bits) : Except Reject (Instr × Bits) :=
  match w.phase with
  | .header => decode .zlibHeader bs
  | .block => decode .blockHeader bs
  | .storedBody => decode .storedBody (skipPadding w.ipos bs)
  | .dynCounts => decode .dynCounts bs
  | .dynClLens => decode (.dynClLens w.ncl) bs
  | .codeLengths => decodeCodeLength w.cl w.lens.isEmpty bs
  | .litLenCode => if w.fixed then decode .fixedLitLen bs else decodeLitLen w.ll bs
  | .litLenSymbol => decodeLitLenSymbol w.sym bs
  | .distCode => if w.fixed then decode .fixedDist bs else decodeDist w.dd bs
  | .distSymbol => decodeDistSymbol w.dsym bs
  | .trailer => decode .zlibTrailer (skipPadding w.ipos bs)

/-- Fetch an element of the stream: the cursor moves past what was read (30_encoding.md R107). -/
def fetchElement (s : State) (w : Infl) : Fetched :=
  if s.inflRegionsValid then
    match w.decodeNext (s.window w.ipos) with
    | .ok (i, rest) => .run i { s with engine := .infl { w with ipos := w.ipos + ((s.window w.ipos).length - rest.length) } }
    | .error e => .complete (s.raiseData s.dstRegion e.err)
  else .fault .outsideBuffer

/-- Fetch the filter-type byte of the current row (R158). -/
def fetchRow (s : State) (f : Filt) : Fetched :=
  if f.row < f.height && s.holds (s.filtSource f) then .run (decodeFilterByte (s.byteAt (s.rowAddr f))) s
  else .fault .outsideBuffer

/-- What the engine executes next. -/
def fetch (s : State) : Fetched :=
  match s.engine with
  | .idle => .run (decodeCommand s.cmd) s
  | .infl w => fetchElement s w
  | .filt f => fetchRow s f

/-! ## Placing one instruction -/

/-- The bytes of a bit sequence, the last one filled up with zeros. -/
def packBits : Nat → Bits → List Byte
  | 0, _ => []
  | n + 1, bs => BitVec.ofNat 8 (fieldValue (bs.take 8)) :: packBits n (bs.drop 8)

/-- A state in which the command `cmd` is in flight over the source bytes `bytes` at address 0, its destination after them. -/
def State.inFlight (s : State) (cmd : Word) (bytes : List Byte) (e : Engine) : State :=
  { (s.issue cmd).memWrite 0 bytes with
    turns := []
    src := 0#32
    slen := BitVec.ofNat 32 bytes.length
    dst := BitVec.ofNat 32 bytes.length
    dcap := 256#32
    engine := e }

/-- `s` with the instruction `i` where the engine fetches next (log 9): a command word in `CMD`, issued; an element of a stream
at the cursor of an INFLATE in flight (a symbol number in the variable its code was decoded to); a filter-type byte at the
first row of a DEFILTER in flight, of one row of one pixel of one byte. Operand bits that follow a symbol number are 0. -/
def State.place (s : State) (i : Instr) : State :=
  match i.format with
  | .cmdWord => { s with turns := [] }.issue (commandWord i)
  | .zlibHeader => s.inFlight 4#32 (packBits 8 (encode i)) (.infl { Infl.start with phase := .header })
  | .blockHeader => s.inFlight 4#32 (packBits 8 (encode i)) (.infl { Infl.start with phase := .block })
  | .storedBody => s.inFlight 4#32 (packBits 8 (encode i)) (.infl { Infl.start with phase := .storedBody })
  | .dynCounts => s.inFlight 4#32 (packBits 8 (encode i)) (.infl { Infl.start with phase := .dynCounts })
  | .dynClLens ncl => s.inFlight 4#32 (packBits 8 (encode i)) (.infl { Infl.start with ncl := ncl, phase := .dynClLens })
  | .clSymbol =>
    -- a complete code-length code in which every symbol has the 5-bit code of its own number but 0 to 12, which have 4 bits
    s.inFlight 4#32
      (packBits 8 (codeBits (if fieldValue ((encode i).take 5) < 13 then 4 else 5)
        (if fieldValue ((encode i).take 5) < 13 then fieldValue ((encode i).take 5)
         else fieldValue ((encode i).take 5) + 13) ++ (encode i).drop 5))
      (.infl { Infl.start with
        nlen := 257
        ndist := 1
        lens := [0]
        cl := buildCodes (List.replicate 13 4 ++ List.replicate 6 5)
        phase := .codeLengths })
  | .fixedLitLen => s.inFlight 4#32 (packBits 8 (encode i)) (.infl { Infl.start with fixed := true, phase := .litLenCode })
  | .fixedDist => s.inFlight 4#32 (packBits 8 (encode i)) (.infl { Infl.start with fixed := true, phase := .distCode })
  | .litLenSymbol =>
    s.inFlight 4#32 (packBits 8 ((encode i).drop 9))
      (.infl { Infl.start with fixed := true, sym := fieldValue ((encode i).take 9), phase := .litLenSymbol })
  | .distSymbol =>
    s.inFlight 4#32 (packBits 8 ((encode i).drop 5))
      (.infl { Infl.start with fixed := true, dsym := fieldValue ((encode i).take 5), phase := .distSymbol })
  | .zlibTrailer => s.inFlight 4#32 (packBits 8 (encode i)) (.infl { Infl.start with phase := .trailer })
  | .filterByte =>
    s.inFlight 3#32 (packBits 2 (encode i)) (.filt { bpp := 1, rowBytes := 1, height := 1, row := 0, rows := [] })

/-- `s` with the instruction of a table word where the engine fetches next; a word no row has changes nothing. -/
def State.placeWord (s : State) (nbits w : Nat) : State :=
  match decodeTableWord nbits w with
  | some i => s.place i
  | none => s

end Sys2Proof.Machine
end

