-- ==== Sys2Proof/Machine/Engine.lean ====
section
/-! DEFINITION. The engine's move (40_command_protocol.md R120, R126): it completes the issued command in one atomic step. The
move is made of internal steps (R132), each one instruction of the opcode table: a command word, an element of a zlib stream,
a row of a scanline stream. -/

namespace Sys2Proof.Machine

/-- One internal step (R132): fetch one instruction and execute it. -/
def engineStep (s : State) : Result :=
  match fetch s with
  | .run i s' => exec i s'
  | .complete s' => .next s'
  | .fault r => .fault r

/-- More internal steps than any command takes (R132): the command word, then for INFLATE at most two for each bit of the source
region and one more, for DEFILTER one for each row. -/
def State.internalBound (s : State) : Nat :=
  16 * s.slen.toNat + s.imgH.toNat + 4

/-- Internal steps until the command has completed, at most `n`. -/
def runCommand : Nat → State → Result
  | 0, s => .next s
  | n + 1, s =>
    if s.status.busy then
      match engineStep s with
      | .next t => runCommand n t
      | .fault r => .fault r
      | .refused r => .refused r
    else .next s

/-- The engine's move (R126): the checks and the body of the command in `CMD`, up to its completion, as one step. The turns to
come are no concern of the engine and stay. -/
def engineMove (s : State) : Result :=
  match runCommand s.internalBound { s with turns := [] } with
  | .next t => .next { t with turns := s.turns }
  | .fault r => .fault r
  | .refused r => .refused r

/-- The engine moves if it has a move, which it has exactly when `BUSY = 1` (R120). -/
def engineTurn (s : State) : Result :=
  if s.status.busy then engineMove s else .next s

/-- With no turn to come the model shows the inside of the engine's move, one internal step at a time (log 6). -/
def engineAlone (s : State) : Result :=
  if s.status.busy then engineStep s else .next s

end Sys2Proof.Machine
end

