-- ==== Sys2Proof/Machine/HostPort.lean ====
section
/-! DEFINITION. The host's moves (40_command_protocol.md R121 to R123): register accesses as aligned 32-bit accesses at
`REG_BASE + 4 * index` (10_state.md R21, R35), buffer accesses one byte at a time (20_memory.md R64), and what each does while
a command executes (R36, R77). Also the host notation and its pseudo-instructions (30_encoding.md R114, R115). -/

namespace Sys2Proof.Machine

/-- The index of the register an access names: none unless it is an aligned 32-bit access at or above `REG_BASE` (R35). -/
def Params.regIndex? (p : Params) (addr width : Nat) : Option Nat :=
  if width = 4 ∧ p.regBase ≤ addr ∧ (addr - p.regBase) % 4 = 0 then some ((addr - p.regBase) / 4) else none

/-- The address in `BUF` that an access names: none outside `BUF` (R64). -/
def Params.bufIndex? (p : Params) (addr : Nat) : Option Nat :=
  if p.bufBase ≤ addr ∧ addr - p.bufBase < p.bufSize then some (addr - p.bufBase) else none

/-- The host has read `v`: the model records it; the block does not change. -/
def State.observe (s : State) (v : Word) : State :=
  { s with reads := v :: s.reads }

/-- An address lies in the destination region of the executing command (R77). -/
def State.inDestination (s : State) (a : Nat) : Bool :=
  match s.destination? with
  | some r => r.addr ≤ a && a < r.addr + r.len
  | none => false

/-- `RDB` (R123, R77): while `BUSY = 1` a byte of the destination region is unspecified, a fresh free byte (log 4). -/
def State.readBuffer (s : State) (a : Nat) : State :=
  if s.status.busy && s.inDestination a then
    { s with draws := s.draws + 1 }.observe ((Config.freeByte s.draws).setWidth 32)
  else s.observe ((s.byteAt a).setWidth 32)

/-- `WRB` (R123): ignored while `BUSY = 1`. -/
def State.writeBuffer (s : State) (a : Nat) (b : Byte) : State :=
  if s.status.busy then s else s.memWrite a [b]

/-- One move of the host. -/
def hostMove (s : State) (m : HostMove) : Host.Outcome State Fault Refusal :=
  match m with
  | .regWrite addr width v =>
    match Params.regIndex? s.params addr width with
    | some i => .next (s.writeRegister i v)
    | none => .refused .registerAccess
  | .regRead addr width =>
    match Params.regIndex? s.params addr width with
    | some i => .next (s.observe (s.register i))
    | none => .refused .registerAccess
  | .bufWrite addr b =>
    match Params.bufIndex? s.params addr with
    | some a => .next (s.writeBuffer a b)
    | none => .refused .bufferAccess
  | .bufRead addr =>
    match Params.bufIndex? s.params addr with
    | some a => .next (s.readBuffer a)
    | none => .refused .bufferAccess

/-! ## Host notation (R114) -/

/-- `WR reg, value`, the register by its index (R21). -/
def wr (p : Params) (i : Nat) (v : Word) : Turn :=
  .host (.regWrite (p.regBase + 4 * i) 4 v)

/-- `RD reg`. -/
def rd (p : Params) (i : Nat) : Turn :=
  .host (.regRead (p.regBase + 4 * i) 4)

/-- `WRB addr, b0 b1 ...`. -/
def wrb (p : Params) : Nat → List Byte → List Turn
  | _, [] => []
  | a, b :: bs => .host (.bufWrite (p.bufBase + a) b) :: wrb p (a + 1) bs

/-- `RDB addr, n`. -/
def rdb (p : Params) : Nat → Nat → List Turn
  | _, 0 => []
  | a, n + 1 => .host (.bufRead (p.bufBase + a)) :: rdb p (a + 1) n

/-- `CMD mnemonic`; `WAIT`. -/
def issueAndWait (p : Params) (i : Instr) : List Turn :=
  [wr p 0 (commandWord i), .wait]

/-- The pseudo-instruction `NOP` (R115). -/
def pseudoNop (p : Params) : List Turn :=
  issueAndWait p .nop

/-- `CRC32 src, slen` (R115). -/
def pseudoCrc32 (p : Params) (src slen : Word) : List Turn :=
  [wr p 2 src, wr p 3 slen] ++ issueAndWait p .crc32

/-- `CRC32.CONT src, slen` (R115). -/
def pseudoCrc32Cont (p : Params) (src slen : Word) : List Turn :=
  [wr p 2 src, wr p 3 slen] ++ issueAndWait p .crc32Cont

/-- `CRC_CHECK src, slen` (R115). -/
def pseudoCrcCheck (p : Params) (src slen : Word) : List Turn :=
  [wr p 2 src, wr p 3 slen] ++ issueAndWait p .crcCheck

/-- `INFLATE src, slen, dst, dcap` (R115). -/
def pseudoInflate (p : Params) (src slen dst dcap : Word) : List Turn :=
  [wr p 2 src, wr p 3 slen, wr p 4 dst, wr p 5 dcap] ++ issueAndWait p .inflate

/-- `DEFILTER src, slen, dst, dcap, w, h, fmt` (R115). -/
def pseudoDefilter (p : Params) (src slen dst dcap w h fmt : Word) : List Turn :=
  [wr p 2 src, wr p 3 slen, wr p 4 dst, wr p 5 dcap, wr p 8 w, wr p 9 h, wr p 10 fmt] ++ issueAndWait p .defilter

/-- `MODEXP src, slen, exp, elen, mod, mlen, dst, olen` (R115). -/
def pseudoModexp (p : Params) (src slen exp elen mod mlen dst olen : Word) : List Turn :=
  [wr p 2 src, wr p 3 slen, wr p 13 exp, wr p 14 elen, wr p 15 mod, wr p 16 mlen, wr p 4 dst, wr p 5 olen]
    ++ issueAndWait p .modexp

end Sys2Proof.Machine
end

