-- ==== Sys2Proof/Machine/Step.lean ====
section
/-! DEFINITION. One step of the model: one move of one agent (40_command_protocol.md R120). -/

namespace Sys2Proof.Machine

/-- One step (R120): the move of the agent whose turn is next. Without a turn to come neither the host nor the reset input can
act any more, and a step is one internal step of the engine's move (log 6). -/
def step (s : State) : Host.Outcome State Fault Refusal :=
  match s.turns with
  | [] => engineAlone s
  | .host m :: ts => hostMove { s with turns := ts } m
  | .engine :: ts => engineTurn { s with turns := ts }
  | .wait :: ts => if s.status.busy then engineMove s else .next { s with turns := ts }
  | .reset :: ts => .next { s with turns := ts }.applyReset

/-- `s` with the instruction of a table word where step fetches next (log 9). -/
def State.withFetchWord (s : State) (nbits w : Nat) : State :=
  s.placeWord nbits w

end Sys2Proof.Machine
end

