-- ==== Sys2Proof/Safety.lean ====
section
/-! DEFINITION. What counts as a coherent state and a safe run, and the terms the statements use: what a completion, an error
and a frame are, and the specification's own form of the copy and of a whole image. -/

namespace Sys2Proof.Machine

/-! ## Coherent states -/

/-- The invariants of `STATUS` that hold in every reachable state (10_state.md R23). -/
abbrev Status.Lawful (t : Status) : Prop :=
  (t.busy = true → t.done = false ∧ t.err = false ∧ t.matched = false ∧ t.errCode = 0#8)
    ∧ (t.err = true → t.done = true ∧ t.errCode ≠ 0#8)
    ∧ (t.err = false → t.errCode = 0#8)
    ∧ (t.matched = true → t.done = true ∧ t.err = false)

/-- Between commands there is no working state (10_state.md R42). -/
abbrev State.IdleBetweenCommands (s : State) : Prop :=
  s.status.busy = false → s.engine = .idle

/-- The running count and sums of an INFLATE are those of the bytes it has produced (R42, 30_encoding.md R105). -/
abbrev Infl.Counted (w : Infl) : Prop :=
  w.count = w.hist.length ∧ (w.s1, w.s2) = adlerSums w.out

/-- The same for the INFLATE in flight, if there is one. -/
def State.OutputCounted (s : State) : Prop :=
  ∀ w, s.engine = .infl w → w.Counted

/-- Every listed byte lies in `BUF` (R41). -/
abbrev State.BufInside (s : State) : Prop :=
  ∀ c ∈ s.buf, c.1 < s.params.bufSize

/-- An INFLATE in flight is one the checks of R175 let through, its cursor is inside the source region (R38) and its output
inside the capacity (R204). -/
abbrev State.InflCoherent (s : State) (w : Infl) : Prop :=
  decodeCommand s.cmd = .inflate ∧ s.holds s.srcRegion = true ∧ s.holds s.dstRegion = true
    ∧ s.dstRegion.overlaps s.srcRegion = false ∧ w.ipos ≤ 8 * s.slen.toNat ∧ w.Counted ∧ w.count ≤ s.dcap.toNat

/-- A DEFILTER in flight is one the checks of R158 let through, and its rows are rows of its image. -/
abbrev State.FiltCoherent (s : State) (f : Filt) : Prop :=
  decodeCommand s.cmd = .defilter ∧ s.defilterParams = .ok f.bpp ∧ f.rowBytes = s.imgW.toNat * f.bpp
    ∧ f.height = s.imgH.toNat ∧ s.holds s.srcRegion = true ∧ s.holds (s.pixelRegion f.bpp) = true
    ∧ (s.pixelRegion f.bpp).overlaps s.srcRegion = false ∧ f.row < f.height ∧ f.rows.length = f.row
    ∧ ∀ r ∈ f.rows, r.length = f.rowBytes

/-- The working state fits the command in `CMD` (R42). -/
def State.EngineCoherent (s : State) : Prop :=
  match s.engine with
  | .idle => True
  | .infl w => s.InflCoherent w
  | .filt f => s.FiltCoherent f

/-- A state the block can be in: the parameters in their ranges (00_scope.md R5), `BUF` canonical and inside its size, the
invariants of `STATUS`, and a working state that fits. -/
def State.Coherent (s : State) : Prop :=
  s.params.Ok ∧ s.buf.wf ∧ s.BufInside ∧ s.status.Lawful ∧ s.IdleBetweenCommands ∧ s.EngineCoherent

/-- The next turn is no host access that the spec puts outside itself (R35, R64, 93 X1, X2). -/
def State.NextAccessAllowed (s : State) : Prop :=
  match s.turns with
  | .host (.regWrite a w _) :: _ => (Params.regIndex? s.params a w).isSome = true
  | .host (.regRead a w) :: _ => (Params.regIndex? s.params a w).isSome = true
  | .host (.bufWrite a _) :: _ => (Params.bufIndex? s.params a).isSome = true
  | .host (.bufRead a) :: _ => (Params.bufIndex? s.params a).isSome = true
  | _ => True

/-! ## Completions and frames -/

/-- `STATUS` from issue to completion (R124): 0x00000001. -/
def Status.running : Status :=
  { busy := true, done := false, err := false, matched := false, errCode := 0#8 }

/-- `STATUS` after a success (R127): 0x00000002, or 0x0000000A with `MATCH`. -/
def Status.success (matched : Bool) : Status :=
  { busy := false, done := true, err := false, matched := matched, errCode := 0#8 }

/-- `STATUS` after an error (R128): the code and 0x06. -/
def Status.failure (e : Err) : Status :=
  { busy := false, done := true, err := true, matched := false, errCode := e.code }

/-- The registers no command writes (R60), the parameters and the model's host side are the same. -/
abbrev State.SameInputs (s t : State) : Prop :=
  t.params = s.params ∧ t.cmd = s.cmd ∧ t.src = s.src ∧ t.slen = s.slen ∧ t.dst = s.dst ∧ t.dcap = s.dcap
    ∧ t.imgW = s.imgW ∧ t.imgH = s.imgH ∧ t.imgFmt = s.imgFmt ∧ t.expAddr = s.expAddr ∧ t.expLen = s.expLen
    ∧ t.modAddr = s.modAddr ∧ t.modLen = s.modLen ∧ t.turns = s.turns ∧ t.reads = s.reads ∧ t.resets = s.resets

/-- `BUF` reads the same outside a region. -/
def State.SameOutside (s t : State) (r : Region) : Prop :=
  ∀ a, ¬ (r.addr ≤ a ∧ a < r.addr + r.len) → t.byteAt a = s.byteAt a

/-- `BUF` reads the same everywhere. -/
def State.SameBuf (s t : State) : Prop :=
  ∀ a, t.byteAt a = s.byteAt a

/-- Completion with an error of stages 1 to 4 (R128, R129): the error, `DLEN = 0`, and nothing else changes. -/
def State.FailsUnchanged (s t : State) (e : Err) : Prop :=
  t = { s with status := Status.failure e, dlen := 0#32, engine := .idle }

/-- Completion with an error of the data stage (R128, R76): as above, but every byte of the destination region `r` is a fresh
free byte; every byte outside it is as it was. -/
def State.FailsInData (s t : State) (r : Region) (e : Err) : Prop :=
  s.SameInputs t ∧ t.icons = s.icons ∧ t.adler = s.adler ∧ t.crcVal = s.crcVal ∧ t.status = Status.failure e
    ∧ t.dlen = 0#32 ∧ t.engine = .idle ∧ s.SameOutside t r ∧ t.draws = s.draws + r.len
    ∧ ∀ i, i < r.len → t.byteAt (r.addr + i) = Config.freeByte (s.draws + i)

/-- `i` completes the command with an error of stages 1 to 4. -/
def State.RaisesUnchanged (s : State) (i : Instr) (e : Err) : Prop :=
  ∃ t, exec i s = .next t ∧ s.FailsUnchanged t e

/-- `i` completes the command with an error of the data stage, its destination region `r`. -/
def State.RaisesInData (s : State) (i : Instr) (r : Region) (e : Err) : Prop :=
  ∃ t, exec i s = .next t ∧ s.FailsInData t r e

/-- Successful completion of a command that writes `out` to `DST` (R127, R76): exactly those bytes, `DLEN` their number, and
apart from `ICONS` and `ADLER`, which it does not speak of, nothing else. -/
def State.SucceedsWriting (s t : State) (out : List Byte) : Prop :=
  s.SameInputs t ∧ t.crcVal = s.crcVal ∧ t.status = Status.success false ∧ t.dlen.toNat = out.length ∧ t.engine = .idle
    ∧ t.draws = s.draws ∧ s.SameOutside t { addr := s.dst.toNat, len := out.length }
    ∧ ∀ i (h : i < out.length), t.byteAt (s.dst.toNat + i) = out[i]

/-- An INFLATE is in flight with working state `w`, its regions in `BUF` and `STATUS` as at issue. -/
abbrev State.Inflating (s : State) (w : Infl) : Prop :=
  s.engine = .infl w ∧ s.holds s.srcRegion = true ∧ s.holds s.dstRegion = true ∧ s.status = Status.running

/-- A DEFILTER is in flight at a row of its image, its regions in `BUF` and `STATUS` as at issue. -/
abbrev State.Defiltering (s : State) (f : Filt) : Prop :=
  s.engine = .filt f ∧ f.row < f.height ∧ s.holds (s.filtSource f) = true ∧ s.holds (s.filtDest f) = true
    ∧ s.status = Status.running

/-- `s` with the working state `w`, and nothing else changed. -/
def State.withInfl (s : State) (w : Infl) : State :=
  { s with engine := .infl w }

/-! ## Specification functions -/

/-- The copy of 43_inflate.md R203 in its own words, over the output oldest byte first: `length` times, append the byte
`dist` positions before the current end. -/
def lzCopy (out : List Byte) (dist : Nat) : Nat → List Byte
  | 0 => out
  | n + 1 => lzCopy (out ++ [out.getD (out.length - dist) 0#8]) dist n

/-- `LEXT` of 30_encoding.md R100, from symbol 257 on. -/
def lengthExtra : List Nat :=
  [0, 0, 0, 0, 0, 0, 0, 0, 1, 1, 1, 1, 2, 2, 2, 2, 3, 3, 3, 3, 4, 4, 4, 4, 5, 5, 5, 5, 0]

/-- `LBASE` of R100, from symbol 257 on. -/
def lengthBase : List Nat :=
  [3, 4, 5, 6, 7, 8, 9, 10, 11, 13, 15, 17, 19, 23, 27, 31, 35, 43, 51, 59, 67, 83, 99, 115, 131, 163, 195, 227, 258]

/-- `DEXT` of R101. -/
def distExtra : List Nat :=
  [0, 0, 0, 0, 1, 1, 2, 2, 3, 3, 4, 4, 5, 5, 6, 6, 7, 7, 8, 8, 9, 9, 10, 10, 11, 11, 12, 12, 13, 13]

/-- `DBASE` of R101. -/
def distBase : List Nat :=
  [1, 2, 3, 4, 5, 7, 9, 13, 17, 25, 33, 49, 65, 97, 129, 193, 257, 385, 513, 769, 1025, 1537, 2049, 3073, 4097, 6145, 8193,
    12289, 16385, 24577]

/-- The working state after the output has grown to `out`: the bytes, their count and their running sums. -/
def Infl.grownTo (w : Infl) (out : List Byte) : Infl :=
  { w with hist := out.reverse, count := out.length, s1 := (adlerSums out).1, s2 := (adlerSums out).2 }

/-- Element `i` read with a length symbol before it means: copy from `dist` back (43_inflate.md R202, R203), with its errors
`E_DIST` and, if the copy does not fit the capacity, `E_DCAP` (R204). -/
def Instr.CopiesFrom (i : Instr) (dist : Nat) : Prop :=
  ∀ (s : State) (w : Infl), s.Inflating w → w.Counted → w.count ≤ s.dcap.toNat →
    (w.count < dist → s.RaisesInData i s.dstRegion .dist)
      ∧ (dist ≤ w.count → s.dcap.toNat < w.count + w.length → s.RaisesInData i s.dstRegion .dcap)
      ∧ (dist ≤ w.count → w.count + w.length ≤ s.dcap.toNat →
          exec i s = .next (s.withInfl { w.grownTo (lzCopy w.out dist w.length) with phase := .litLenCode }))

/-- Element `i` is a length symbol of value `length`: a distance code comes next (R193). -/
def Instr.SetsLength (i : Instr) (length : Nat) : Prop :=
  ∀ (s : State) (w : Infl), s.Inflating w → exec i s = .next (s.withInfl { w with length := length, phase := .distCode })

/-- Element `i` is a fixed literal/length code of symbol `sym` (R97): the symbol is the next element (log 11). -/
def Instr.NamesSymbol (i : Instr) (sym : Nat) : Prop :=
  ∀ (s : State) (w : Infl), s.Inflating w → exec i s = .next (s.withInfl { w with sym := sym, phase := .litLenSymbol })

/-- Element `i` is a fixed distance code of symbol `d` (R98). -/
def Instr.NamesDistance (i : Instr) (d : Nat) : Prop :=
  ∀ (s : State) (w : Infl), s.Inflating w → exec i s = .next (s.withInfl { w with dsym := d, phase := .distSymbol })

/-- A dynamic block may use the set of these lengths (30_encoding.md R104). -/
def SetAllowed (lens : List Nat) (allowEmpty : Prop) : Prop :=
  kraft lens = 2 ^ 15
    ∨ kraft lens < 2 ^ 15 ∧ (lens.filter (· ≠ 0) = [1] ∨ allowEmpty ∧ lens.filter (· ≠ 0) = [])

/-- The two sets of a dynamic block are legal (R104, 43_inflate.md R185). -/
def SetsAllowed (lens : List Nat) (nlen : Nat) : Prop :=
  lens.getD 256 0 ≠ 0 ∧ SetAllowed (lens.take nlen) False ∧ SetAllowed (lens.drop nlen) True

/-- Element `i` adds `n` lengths of value `v` to a dynamic header (R184), and the last ones end it (R185). -/
def State.AddsLengths (s : State) (i : Instr) (w : Infl) (n v : Nat) : Prop :=
  let lens := w.lens ++ List.replicate n v
  (w.nlen + w.ndist < lens.length → s.RaisesInData i s.dstRegion .codelen)
    ∧ (lens.length < w.nlen + w.ndist → exec i s = .next (s.withInfl { w with lens := lens }))
    ∧ (lens.length = w.nlen + w.ndist → SetsAllowed lens w.nlen →
        exec i s = .next (s.withInfl { w with
          lens := lens
          ll := buildCodes (lens.take w.nlen)
          dd := buildCodes (lens.drop w.nlen)
          phase := .litLenCode }))
    ∧ (lens.length = w.nlen + w.ndist → ¬ SetsAllowed lens w.nlen → s.RaisesInData i s.dstRegion .codelen)

/-- The zlib stream of one final stored block (R91, R95, R105) holding `data`, with header `78 01`. -/
def storedStream (data : List Byte) : List Byte :=
  [0x78#8, 0x01#8, 0x01#8] ++ (serBe 2 data.length).reverse ++ (serBe 2 (65535 - data.length)).reverse ++ data
    ++ serBe 4 (adler32 data)

/-- The filter-type byte of a kind (30_encoding.md R110). -/
def FilterKind.typeByte : FilterKind → Byte
  | .none => 0#8
  | .sub => 1#8
  | .up => 2#8
  | .average => 3#8
  | .paeth => 4#8

/-- The filtered scanline stream of the rows of an image, each with its own filter kind, by the forward direction of R161. -/
def filterImage (bpp : Nat) : List Byte → List (FilterKind × List Byte) → List Byte
  | _, [] => []
  | above, (k, row) :: rest => k.typeByte :: filterRow k bpp above row ++ filterImage bpp row rest

/-- `k` moves of the engine. -/
def runEngine (k : Nat) (s : State) : Host.Outcome State Fault Refusal :=
  Host.Core.run Sys2Proof.core k s

end Sys2Proof.Machine
end

