-- ==== Sys2Proof/Certificates/Slice0/Obligations.lean ====
section
/-! DEFINITION. The statements for the provers. A statement about a state after issue takes `STATUS = Status.running` (R124)
as its hypothesis: that is what every issue leaves and what holds until the completion. -/

open Sys2Proof Sys2Proof.Machine

/-! ## The command protocol -/

/-- With no turn to come a step is one internal step of the engine's move, and it runs what is fetched: the word in `CMD`,
the element the decoder reads at the cursor (the cursor having moved past it), or the filter-type byte of the current row
(R126, R133; the split into elements and rows is the model's, log 6). Bits that are no element complete the command with
their error. Which decoder reads in which phase: the elements of R175 and R190 in their order, with the padding skipped
before `LEN` and before the trailer (R173, R180, R205), the code sets of the block (R184, R193, R200; a fixed code and its
symbol are two elements, log 11), and code-length symbol 16 with nothing to repeat found before its extra bits (R184). -/
def Obligations.StepRunsTheDecodedInstruction : Prop :=
  ∀ s : State, s.status.busy = true → s.turns = [] →
    (s.engine = .idle → step s = exec (decodeCommand s.cmd) s)
      ∧ (∀ w, s.engine = .infl w → s.holds s.srcRegion = true → s.holds s.dstRegion = true →
          (∀ i rest, w.decodeNext (s.window w.ipos) = .ok (i, rest) →
            step s = exec i (s.withInfl { w with ipos := w.ipos + ((s.window w.ipos).length - rest.length) }))
          ∧ (s.status = Status.running → ∀ e, w.decodeNext (s.window w.ipos) = .error e →
            ∃ t, step s = .next t ∧ s.FailsInData t s.dstRegion e.err))
      ∧ (∀ f, s.engine = .filt f → f.row < f.height → s.holds (s.filtSource f) = true →
          step s = exec (decodeFilterByte (s.byteAt (s.src.toNat + f.row * (1 + f.rowBytes)))) s)
      ∧ (∀ (w : Infl) (bs : Bits),
          let pad := (8 - w.ipos % 8) % 8
          (w.phase = .header → w.decodeNext bs = decode .zlibHeader bs)
            ∧ (w.phase = .block → w.decodeNext bs = decode .blockHeader bs)
            ∧ (w.phase = .storedBody → w.decodeNext bs = decode .storedBody (bs.drop pad))
            ∧ (w.phase = .dynCounts → w.decodeNext bs = decode .dynCounts bs)
            ∧ (w.phase = .dynClLens → w.decodeNext bs = decode (.dynClLens w.ncl) bs)
            ∧ (w.phase = .codeLengths →
                (∀ e, huffmanDecode w.cl bs = .error e → w.decodeNext bs = .error e)
                  ∧ (∀ rest, huffmanDecode w.cl bs = .ok (16, rest) → w.lens = [] →
                      w.decodeNext bs = .error .nothingToRepeat)
                  ∧ (∀ sym rest, huffmanDecode w.cl bs = .ok (sym, rest) → sym ≠ 16 ∨ w.lens ≠ [] →
                      w.decodeNext bs = decodeClSymbol sym rest))
            ∧ (w.phase = .litLenCode → w.fixed = true → w.decodeNext bs = decode .fixedLitLen bs)
            ∧ (w.phase = .litLenCode → w.fixed = false →
                (∀ e, huffmanDecode w.ll bs = .error e → w.decodeNext bs = .error e)
                  ∧ (∀ sym rest, huffmanDecode w.ll bs = .ok (sym, rest) → w.decodeNext bs = decodeLitLenSymbol sym rest))
            ∧ (w.phase = .litLenSymbol → w.decodeNext bs = decodeLitLenSymbol w.sym bs)
            ∧ (w.phase = .distCode → w.fixed = true → w.decodeNext bs = decode .fixedDist bs)
            ∧ (w.phase = .distCode → w.fixed = false →
                (∀ e, huffmanDecode w.dd bs = .error e → w.decodeNext bs = .error e)
                  ∧ (∀ d rest, huffmanDecode w.dd bs = .ok (d, rest) → w.decodeNext bs = decodeDistSymbol d rest))
            ∧ (w.phase = .distSymbol → w.decodeNext bs = decodeDistSymbol w.dsym bs)
            ∧ (w.phase = .trailer → w.decodeNext bs = decode .zlibTrailer (bs.drop pad)))
      ∧ Reject.truncated.err = .trunc ∧ Reject.notDeflate.err = .zhdr ∧ Reject.noCode.err = .symbol
      ∧ Reject.nothingToRepeat.err = .codelen

/-- The engine has a move exactly when `BUSY = 1` (R120); a `WAIT` lets it make it (R114). Its move, when its turn comes, is
one step from the state as it is to the completion of the command (R126): what the internal steps the model shows with no
turn to come lead to (log 6), the turns to come staying. That `turns` says who moves is the model's (log 5). -/
def Obligations.EngineMovesExactlyWhileBusy : Prop :=
  ∀ (s : State) (ts : List Turn),
    (s.status.busy = false →
      (s.turns = [] → step s = .next s)
        ∧ (s.turns = .engine :: ts ∨ s.turns = .wait :: ts → step s = .next { s with turns := ts }))
      ∧ (s.status.busy = true →
        (s.turns = [] → step s = engineStep s)
          ∧ ∀ k t, k ≤ s.internalBound → runEngine k { s with turns := [] } = .next t → t.status.busy = false →
              (s.turns = .engine :: ts → step s = .next { t with turns := ts })
                ∧ (s.turns = .wait :: ts → step s = .next { t with turns := .wait :: ts }))

/-- Issue (R124): the word is stored, `BUSY` set and the rest of `STATUS` cleared, nothing else changes; and the operand
registers keep their values in every step until the completion. -/
def Obligations.IssueStoresTheWordAndSetsBusy : Prop :=
  (∀ (s : State) (v : Word) (ts : List Turn), s.status.busy = false →
    s.turns = .host (.regWrite s.params.regBase 4 v) :: ts →
      step s = .next { s with turns := ts, cmd := v, status := Status.running })
    ∧ ∀ s t : State, s.Coherent → s.status.busy = true → step s = .next t → t.status.busy = true →
        ∀ i, t.register i = s.register i

/-- A register write or a `BUF` write while `BUSY = 1` changes nothing (R36, R77, R121, R123, R125). -/
def Obligations.WritesWhileBusyAreIgnored : Prop :=
  ∀ (s : State) (ts : List Turn), s.status.busy = true →
    (∀ i v, s.turns = .host (.regWrite (s.params.regBase + 4 * i) 4 v) :: ts → step s = .next { s with turns := ts })
      ∧ (∀ a b, a < s.params.bufSize → s.turns = .host (.bufWrite (s.params.bufBase + a) b) :: ts →
          step s = .next { s with turns := ts })

/-- A register write (R121): while `BUSY = 1` no effect; to `CMD`, issue; to one of the twelve `RW` registers, it takes the
value and nothing else changes, each index being the register of R21's table; to a read-only or unassigned index, no effect.
-/
def Obligations.RegisterWriteStoresOnlyItsRegister : Prop :=
  ∀ (s : State) (i : Nat) (v : Word) (ts : List Turn),
    s.turns = .host (.regWrite (s.params.regBase + 4 * i) 4 v) :: ts →
      (s.status.busy = true → step s = .next { s with turns := ts })
        ∧ (s.status.busy = false → i = 0 → step s = .next { s with turns := ts, cmd := v, status := Status.running })
        ∧ (s.status.busy = false →
            ∀ t, (i, t) ∈ [(2, { s with turns := ts, src := v }), (3, { s with turns := ts, slen := v }),
                (4, { s with turns := ts, dst := v }), (5, { s with turns := ts, dcap := v }),
                (8, { s with turns := ts, imgW := v }), (9, { s with turns := ts, imgH := v }),
                (10, { s with turns := ts, imgFmt := v }), (11, { s with turns := ts, crcVal := v }),
                (13, { s with turns := ts, expAddr := v }), (14, { s with turns := ts, expLen := v }),
                (15, { s with turns := ts, modAddr := v }), (16, { s with turns := ts, modLen := v })] →
              step s = .next t)
        ∧ (s.status.busy = false → i ∉ [0, 2, 3, 4, 5, 8, 9, 10, 11, 13, 14, 15, 16] →
            step s = .next { s with turns := ts })

/-- A register read (R122) answers the register of its index (R21), 0 for an unassigned index, and changes nothing of the
block, busy or not. -/
def Obligations.RegisterReadChangesNothing : Prop :=
  ∀ (s : State) (i : Nat) (v : Word) (ts : List Turn), s.turns = .host (.regRead (s.params.regBase + 4 * i) 4) :: ts →
    (i, v) ∈ [(0, s.cmd), (1, s.status.word), (2, s.src), (3, s.slen), (4, s.dst), (5, s.dcap), (6, s.dlen), (7, s.icons),
        (8, s.imgW), (9, s.imgH), (10, s.imgFmt), (11, s.crcVal), (12, s.adler), (13, s.expAddr), (14, s.expLen),
        (15, s.modAddr), (16, s.modLen)] ∨ (17 ≤ i ∧ v = 0#32) →
      step s = .next { s with turns := ts, reads := v :: s.reads } ∧ s.register i = v

/-- `WRB` and `RDB` (R123, R77): a write while `BUSY = 0` sets that byte and no other; a read answers the byte, but while
`BUSY = 1` one of the destination region is a free byte (log 4). The destination region is the one R130 gives the command. -/
def Obligations.BufferAccessesReachOneByte : Prop :=
  (∀ (s : State) (a : Nat),
    (s.cmd = 0x00000004#32 ∨ s.cmd = 0x00000005#32 →
        (s.inDestination a = true ↔ s.dst.toNat ≤ a ∧ a < s.dst.toNat + s.dcap.toNat))
      ∧ (s.cmd = 0x00000003#32 → ∀ bpp, (s.imgFmt.toNat % 2 ^ 8, bpp) ∈ [(0, 1), (2, 3), (3, 1), (4, 2), (6, 4)] →
          (s.inDestination a = true ↔
            s.dst.toNat ≤ a ∧ a < s.dst.toNat + s.imgH.toNat * s.imgW.toNat * bpp))
      ∧ (s.cmd ∉ [0x00000003#32, 0x00000004#32, 0x00000005#32] → s.inDestination a = false))
    ∧ ∀ (s : State) (a : Nat) (ts : List Turn), a < s.params.bufSize →
    (∀ b, s.status.busy = false → s.turns = .host (.bufWrite (s.params.bufBase + a) b) :: ts →
        ∃ t, step s = .next t ∧ t.byteAt a = b ∧ (∀ k, k ≠ a → t.byteAt k = s.byteAt k)
          ∧ t = { s with turns := ts, buf := t.buf })
      ∧ (s.turns = .host (.bufRead (s.params.bufBase + a)) :: ts →
          (s.status.busy = false ∨ s.inDestination a = false →
            step s = .next { s with turns := ts, reads := (s.byteAt a).setWidth 32 :: s.reads })
          ∧ (s.status.busy = true → s.inDestination a = true →
            step s = .next { s with
              turns := ts, draws := s.draws + 1, reads := (Config.freeByte s.draws).setWidth 32 :: s.reads }))

/-- The host accesses the spec puts outside itself are refused, each by its name (R35, R64; log 13). -/
def Obligations.AccessesOutsideTheSpecAreRefused : Prop :=
  ∀ (s : State) (ts : List Turn),
    (∀ addr width v, width ≠ 4 ∨ addr < s.params.regBase ∨ (addr - s.params.regBase) % 4 ≠ 0 →
      s.turns = .host (.regWrite addr width v) :: ts → step s = .refused .registerAccess)
      ∧ (∀ addr width, width ≠ 4 ∨ addr < s.params.regBase ∨ (addr - s.params.regBase) % 4 ≠ 0 →
        s.turns = .host (.regRead addr width) :: ts → step s = .refused .registerAccess)
      ∧ (∀ a b, s.params.bufSize ≤ a → s.turns = .host (.bufWrite (s.params.bufBase + a) b) :: ts →
        step s = .refused .bufferAccess)
      ∧ (∀ a, s.params.bufSize ≤ a → s.turns = .host (.bufRead (s.params.bufBase + a)) :: ts →
        step s = .refused .bufferAccess)

/-- Reset (R280, R281, R45): every register 0, no working state, a command abandoned; every byte of `BUF` is a free byte of
this reset (log 2). The state the model starts from is such a state, and it is coherent. -/
def Obligations.ResetClearsEveryRegister : Prop :=
  (∀ (s : State) (ts : List Turn), s.turns = .reset :: ts →
    ∃ t, step s = .next t ∧ (∀ i, t.register i = 0#32) ∧ t.engine = .idle
      ∧ (∀ a, t.byteAt a = Config.resetByte (s.resets + 1) a) ∧ t.params = s.params ∧ t.turns = ts)
    ∧ (∀ i, State.reset.register i = 0#32) ∧ State.reset.engine = .idle ∧ State.reset.Coherent

/-- The layout of `STATUS` as a read returns it (R23), and what it reads after an error: the code of R241 and 0x06. -/
def Obligations.StatusWordHasItsFields : Prop :=
  ∀ t : Status,
    t.word.getLsbD 0 = t.busy ∧ t.word.getLsbD 1 = t.done ∧ t.word.getLsbD 2 = t.err ∧ t.word.getLsbD 3 = t.matched
      ∧ (∀ k, 4 ≤ k → k < 8 → t.word.getLsbD k = false)
      ∧ (∀ k, k < 8 → t.word.getLsbD (8 + k) = t.errCode.getLsbD k)
      ∧ (∀ k, 16 ≤ k → t.word.getLsbD k = false)
      ∧ ∀ e c, (e, c) ∈ [(Err.trunc, 0x10), (.zhdr, 0x11), (.zdict, 0x12), (.btype, 0x13), (.stored, 0x14), (.codelen, 0x15),
          (.symbol, 0x16), (.dist, 0x17), (.adler, 0x18), (.len, 0x19), (.interlace, 0x20), (.colortype, 0x21), (.cmd, 0x30),
          (.addr, 0x31), (.overlap, 0x32), (.modzero, 0x33), (.oplen, 0x34), (.range, 0x35), (.dcap, 0x36), (.filter, 0x40),
          (.method, 0x41), (.dim, 0x42)] →
          (Status.failure e).word.toNat = 256 * c + 6

/-- The invariants of `STATUS` (R23) are kept by every step. -/
def Obligations.StatusInvariantsAreKept : Prop :=
  ∀ s t : State, s.status.Lawful → step s = .next t → t.status.Lawful

/-! ## Command words -/

/-- The opcode map (R87): each word of the table decodes to its command, these are the legal words, and the decoder's
conditions on the bits say the same; every other word is illegal. -/
def Obligations.LegalWordsAreTheSevenOfTheTable : Prop :=
  decodeCommand 0x00000000#32 = .nop ∧ decodeCommand 0x00000001#32 = .crc32 ∧ decodeCommand 0x00000101#32 = .crc32Cont
    ∧ decodeCommand 0x00000002#32 = .crcCheck ∧ decodeCommand 0x00000003#32 = .defilter
    ∧ decodeCommand 0x00000004#32 = .inflate ∧ decodeCommand 0x00000005#32 = .modexp
    ∧ ∀ w : Word,
        let opcode := w.toNat % 2 ^ 8
        (legalWord w = true ↔
            w ∈ [0x00000000#32, 0x00000001#32, 0x00000101#32, 0x00000002#32, 0x00000003#32, 0x00000004#32, 0x00000005#32])
          ∧ (legalWord w = true ↔
              w.toNat / 2 ^ 16 = 0 ∧ w.toNat / 2 ^ 9 % 2 ^ 7 = 0 ∧ opcode ≤ 5 ∧ (w.toNat / 2 ^ 8 % 2 = 0 ∨ opcode = 1))
          ∧ (legalWord w = false ↔ decodeCommand w = .illegalCmd w)

/-- NOP (R131): it completes, whatever the operand registers hold. -/
def Obligations.NopCompletesAndTouchesNothing : Prop :=
  ∀ s : State, s.status = Status.running →
    exec .nop s = .next { s with dlen := 0#32, status := Status.success false, engine := .idle }

/-- An illegal word (R89): executed it raises `E_CMD` and touches nothing; and written to `CMD` it is stored, issues a
command, and that command completes with `E_CMD`. -/
def Obligations.IllegalWordsRaiseECmd : Prop :=
  (∀ (s : State) (w : Word), s.status = Status.running → s.RaisesUnchanged (.illegalCmd w) .cmd)
    ∧ ∀ (s : State) (w : Word), s.status.busy = false → s.engine = .idle →
        s.turns = [.host (.regWrite s.params.regBase 4 w)] →
        w ∉ [0x00000000#32, 0x00000001#32, 0x00000101#32, 0x00000002#32, 0x00000003#32, 0x00000004#32, 0x00000005#32] →
          runEngine 2 s = .next { s with turns := [], cmd := w, status := Status.failure .cmd, dlen := 0#32 }

/-! ## CRC -/

/-- CRC32 (R141). -/
def Obligations.Crc32LeavesTheCrcOfItsRegion : Prop :=
  ∀ s : State, s.status = Status.running →
    (s.src.toNat + s.slen.toNat ≤ s.params.bufSize →
      exec .crc32 s = .next { s with
        crcVal := crcUpdate 0#32 (s.memRead s.src.toNat s.slen.toNat)
        dlen := 0#32, status := Status.success false, engine := .idle })
      ∧ (s.params.bufSize < s.src.toNat + s.slen.toNat → s.RaisesUnchanged .crc32 .addr)

/-- CRC32 with `CONT` (R142): it continues from `CRC_VAL`; and the law that makes it a CRC over pieces. -/
def Obligations.Crc32ContContinuesFromCrcVal : Prop :=
  (∀ s : State, s.status = Status.running →
    (s.src.toNat + s.slen.toNat ≤ s.params.bufSize →
      exec .crc32Cont s = .next { s with
        crcVal := crcUpdate s.crcVal (s.memRead s.src.toNat s.slen.toNat)
        dlen := 0#32, status := Status.success false, engine := .idle })
      ∧ (s.params.bufSize < s.src.toNat + s.slen.toNat → s.RaisesUnchanged .crc32Cont .addr))
    ∧ ∀ (c : Word) (s t : List Byte), crcUpdate (crcUpdate c s) t = crcUpdate c (s ++ t)

/-- CRC_CHECK (R144, R145 (a)): `CRC_VAL` is the CRC of the region, and `MATCH` says whether the four bytes after the region
are it, big-endian; a mismatch is no error. -/
def Obligations.CrcCheckReportsTheComparison : Prop :=
  ∀ s : State, s.status = Status.running →
    let c := crcUpdate 0#32 (s.memRead s.src.toNat s.slen.toNat)
    (s.src.toNat + s.slen.toNat + 4 ≤ s.params.bufSize →
      ∃ m, exec .crcCheck s = .next { s with crcVal := c, dlen := 0#32, status := Status.success m, engine := .idle }
        ∧ (m = true ↔ be (s.memRead (s.src.toNat + s.slen.toNat) 4) = c.toNat)
        ∧ (m = true ↔ s.memRead (s.src.toNat + s.slen.toNat) 4 = serBe 4 c.toNat))
      ∧ (s.params.bufSize < s.src.toNat + s.slen.toNat + 4 → s.RaisesUnchanged .crcCheck .addr)

/-- CRC over pieces (R142): CRC32 of one region, then CRC32.CONT of another, leave the CRC of the concatenation. -/
def Obligations.CrcOfTwoPiecesIsTheCrcOfBoth : Prop :=
  ∀ (s t : State) (src slen : Word), s.status = Status.running →
    s.src.toNat + s.slen.toNat ≤ s.params.bufSize → src.toNat + slen.toNat ≤ s.params.bufSize →
    exec .crc32 s = .next t →
      ∃ u, exec .crc32Cont { t with src := src, slen := slen, cmd := 0x00000101#32, status := Status.running } = .next u
        ∧ u.crcVal
            = crcUpdate 0#32 (s.memRead s.src.toNat s.slen.toNat ++ s.memRead src.toNat slen.toNat)
        ∧ u.status = Status.success false

/-- The check values the spec gives the two checksums (R140, R105). -/
def Obligations.ChecksumsHaveTheirCheckValues : Prop :=
  crcUpdate 0#32 [] = 0x00000000#32
    ∧ crcUpdate 0#32 [0x31#8, 0x32#8, 0x33#8, 0x34#8, 0x35#8, 0x36#8, 0x37#8, 0x38#8, 0x39#8] = 0xCBF43926#32
    ∧ crcUpdate 0#32 [0x49#8, 0x45#8, 0x4E#8, 0x44#8] = 0xAE426082#32
    ∧ adler32 [] = 0x00000001
    ∧ adler32 [0x61#8, 0x62#8, 0x63#8] = 0x024D0127

/-! ## DEFILTER -/

/-- DEFILTER (R158): its checks in their order (R152, R153, R130, R264), each leaving everything but `STATUS` and `DLEN`
as it was, and then its data stage begins at row 0 (log 6). -/
def Obligations.DefilterChecksInOrderThenStarts : Prop :=
  ∀ s : State, s.status = Status.running →
    let ct := s.imgFmt.toNat % 2 ^ 8
    let comp := s.imgFmt.toNat / 2 ^ 8 % 2 ^ 8
    let filt := s.imgFmt.toNat / 2 ^ 16 % 2 ^ 8
    let lace := s.imgFmt.toNat / 2 ^ 24
    let w := s.imgW.toNat
    let h := s.imgH.toNat
    (lace ≠ 0 → s.RaisesUnchanged .defilter .interlace)
      ∧ (lace = 0 → comp ≠ 0 ∨ filt ≠ 0 → s.RaisesUnchanged .defilter .method)
      ∧ (lace = 0 → comp = 0 → filt = 0 → ct ∉ [0, 2, 3, 4, 6] → s.RaisesUnchanged .defilter .colortype)
      ∧ ∀ bpp, (ct, bpp) ∈ [(0, 1), (2, 3), (3, 1), (4, 2), (6, 4)] → lace = 0 → comp = 0 → filt = 0 →
          (w = 0 ∨ h = 0 → s.RaisesUnchanged .defilter .dim)
            ∧ (w ≠ 0 → h ≠ 0 →
                (s.slen.toNat ≠ h * (1 + w * bpp) → s.RaisesUnchanged .defilter .len)
                  ∧ (s.slen.toNat = h * (1 + w * bpp) →
                      (s.dcap.toNat < h * w * bpp → s.RaisesUnchanged .defilter .dcap)
                        ∧ (h * w * bpp ≤ s.dcap.toNat →
                            (s.params.bufSize < s.src.toNat + s.slen.toNat
                                ∨ s.params.bufSize < s.dst.toNat + h * w * bpp →
                              s.RaisesUnchanged .defilter .addr)
                              ∧ (s.src.toNat + s.slen.toNat ≤ s.params.bufSize →
                                  s.dst.toNat + h * w * bpp ≤ s.params.bufSize →
                                  (s.dst.toNat < s.src.toNat + s.slen.toNat ∧ s.src.toNat < s.dst.toNat + h * w * bpp →
                                    s.RaisesUnchanged .defilter .overlap)
                                    ∧ (s.src.toNat + s.slen.toNat ≤ s.dst.toNat
                                        ∨ s.dst.toNat + h * w * bpp ≤ s.src.toNat →
                                      exec .defilter s = .next { s with
                                        engine := .filt
                                          { bpp := bpp, rowBytes := w * bpp, height := h, row := 0, rows := [] } })))))

/-- Each byte of a rebuilt row is the raw byte plus the predictor of its three neighbours, which are rebuilt bytes, 0 where
they do not exist (R154, R157). -/
def Obligations.RebuiltBytesUseTheirNeighbours : Prop :=
  ∀ (k : FilterKind) (bpp : Nat) (above raw : List Byte) (col : Nat), 1 ≤ bpp → above.length = raw.length →
    col < raw.length →
      let row := reconRow k bpp above raw
      let a := if bpp ≤ col then row.getD (col - bpp) 0#8 else 0#8
      let b := above.getD col 0#8
      let c := if bpp ≤ col then above.getD (col - bpp) 0#8 else 0#8
      (row.getD col 0#8).toNat = ((raw.getD col 0#8).toNat + predictor k a b c) % 256

/-- The predictors of the five kinds (R156), the average without wrap-around; the Paeth predictor (R155) is the one of
`a`, `b`, `c` nearest to `p = a + b - c`, ties in the order a, b, c. -/
def Obligations.PredictorsAreThoseOfTheTable : Prop :=
  ∀ a b c : Byte,
    let p : Int := (a.toNat : Int) + b.toNat - c.toNat
    let pa := |p - a.toNat|
    let pb := |p - b.toNat|
    let pc := |p - c.toNat|
    let r := predictor .paeth a b c
    predictor .none a b c = 0 ∧ predictor .sub a b c = a.toNat ∧ predictor .up a b c = b.toNat
      ∧ predictor .average a b c = (a.toNat + b.toNat) / 2
      ∧ (pa ≤ pb → pa ≤ pc → r = a.toNat)
      ∧ (¬ (pa ≤ pb ∧ pa ≤ pc) → pb ≤ pc → r = b.toNat)
      ∧ (¬ (pa ≤ pb ∧ pa ≤ pc) → ¬ pb ≤ pc → r = c.toNat)
      ∧ |p - r| ≤ pa ∧ |p - r| ≤ pb ∧ |p - r| ≤ pc

/-- A legal filter-type byte rebuilds its row (R156, R157, R158). A row that is not the last is kept in the working state and
nothing else changes; the last one completes the command with the pixel buffer. -/
def Obligations.FilterBytesRebuildTheirRow : Prop :=
  ∀ (s : State) (f : Filt) (i : Instr) (k : FilterKind), s.Defiltering f →
    f.rows.length = f.row → (∀ r ∈ f.rows, r.length = f.rowBytes) → f.height * f.rowBytes < 2 ^ 32 →
    (i, k) ∈ [(Instr.filterNone, FilterKind.none), (.filterSub, .sub), (.filterUp, .up), (.filterAverage, .average),
      (.filterPaeth, .paeth)] →
      let raw := s.memRead (s.src.toNat + f.row * (1 + f.rowBytes) + 1) f.rowBytes
      let above := f.rows.headD (List.replicate f.rowBytes 0#8)
      let rows := reconRow k f.bpp above raw :: f.rows
      (f.row + 1 < f.height → exec i s = .next { s with engine := .filt { f with row := f.row + 1, rows := rows } })
        ∧ (f.row + 1 = f.height → ∃ t, exec i s = .next t ∧ s.SucceedsWriting t rows.reverse.flatten
            ∧ t.dlen.toNat = f.height * f.rowBytes ∧ t.icons = s.icons ∧ t.adler = s.adler)

/-- The filter-type bytes (R110); one above 4 (R159): `E_FILTER`, with the destination region unspecified and nothing
outside it. -/
def Obligations.IllegalFilterBytesRaiseEFilter : Prop :=
  decodeFilterByte 0#8 = .filterNone ∧ decodeFilterByte 1#8 = .filterSub ∧ decodeFilterByte 2#8 = .filterUp
    ∧ decodeFilterByte 3#8 = .filterAverage ∧ decodeFilterByte 4#8 = .filterPaeth
    ∧ (∀ b : Byte, 4 < b.toNat ↔ decodeFilterByte b = .filterIllegal b)
    ∧ ∀ (s : State) (f : Filt) (b : Byte), s.Defiltering f →
        s.RaisesInData (.filterIllegal b) { addr := s.dst.toNat, len := f.height * f.rowBytes } .filter

/-- Reconstruction inverts filtering, byte by byte (R162 (a)). -/
def Obligations.ReconstructionInvertsFilteringOfAByte : Prop :=
  ∀ (k : FilterKind) (o a b c : Byte),
    ((filterByte k o a b c).toNat + predictor k a b c) % 256 = o.toNat ∧ reconByte k (filterByte k o a b c) a b c = o

/-- DEFILTER returns the image (R162 (a)): applied to the row-by-row filtering of a pixel buffer, with any kind for each row,
it writes that pixel buffer, in one move of the engine (R126). That the move has one internal step for the command and one for
each row is the model's choice (log 6). -/
def Obligations.DefilterReturnsTheFilteredImage : Prop :=
  ∀ (s : State) (bpp : Nat) (image : List (FilterKind × List Byte)),
    s.status = Status.running → s.turns = [] → s.engine = .idle → s.cmd = 0x00000003#32 →
    (s.imgFmt.toNat, bpp) ∈ [(0, 1), (2, 3), (3, 1), (4, 2), (6, 4)] → s.imgW ≠ 0#32 → s.imgH ≠ 0#32 →
    image.length = s.imgH.toNat → (∀ r ∈ image, r.2.length = s.imgW.toNat * bpp) →
    s.slen.toNat = s.imgH.toNat * (1 + s.imgW.toNat * bpp) → s.imgH.toNat * s.imgW.toNat * bpp ≤ s.dcap.toNat →
    s.src.toNat + s.slen.toNat ≤ s.params.bufSize →
    s.dst.toNat + s.imgH.toNat * s.imgW.toNat * bpp ≤ s.params.bufSize →
    s.src.toNat + s.slen.toNat ≤ s.dst.toNat ∨ s.dst.toNat + s.imgH.toNat * s.imgW.toNat * bpp ≤ s.src.toNat →
    s.memRead s.src.toNat s.slen.toNat = filterImage bpp (List.replicate (s.imgW.toNat * bpp) 0#8) image →
      ∃ t, step { s with turns := [.engine] } = .next t ∧ runEngine (s.imgH.toNat + 1) s = .next t
        ∧ s.SucceedsWriting t (image.map (·.2)).flatten
        ∧ t.icons = s.icons ∧ t.adler = s.adler

/-! ## INFLATE: the command and the stream's frame -/

/-- INFLATE (R175): `E_ADDR`, `E_OVERLAP`, then its data stage begins at bit 0 with no output (R171; log 6). -/
def Obligations.InflateChecksInOrderThenStarts : Prop :=
  ∀ s : State, s.status = Status.running →
    (s.params.bufSize < s.src.toNat + s.slen.toNat ∨ s.params.bufSize < s.dst.toNat + s.dcap.toNat →
      s.RaisesUnchanged .inflate .addr)
      ∧ (s.src.toNat + s.slen.toNat ≤ s.params.bufSize → s.dst.toNat + s.dcap.toNat ≤ s.params.bufSize →
          (0 < s.dcap.toNat ∧ 0 < s.slen.toNat ∧ s.dst.toNat < s.src.toNat + s.slen.toNat
              ∧ s.src.toNat < s.dst.toNat + s.dcap.toNat →
            s.RaisesUnchanged .inflate .overlap)
            ∧ (s.dcap.toNat = 0 ∨ s.slen.toNat = 0 ∨ s.src.toNat + s.slen.toNat ≤ s.dst.toNat
                ∨ s.dst.toNat + s.dcap.toNat ≤ s.src.toNat →
              ∃ w, exec .inflate s = .next (s.withInfl w) ∧ w.phase = .header ∧ w.ipos = 0 ∧ w.out = [] ∧ w.Counted))

/-- Bit `k` of the source region is bit `k mod 8` of its byte `k div 8`, and no bit past its end is ever seen (R93, R171,
R172); the decoder looks at 64 bits from the cursor, more than any element has. -/
def Obligations.SourceBitsStandInStreamOrder : Prop :=
  ∀ (s : State) (ipos k : Nat), k < 64 →
    (s.window ipos)[k]? =
      if ipos + k < 8 * s.slen.toNat then
        some ((s.byteAt (s.src.toNat + (ipos + k) / 8)).getLsbD ((ipos + k) % 8))
      else none

/-- `getbits(n)` (R172): `n` bits, least significant first, or `E_TRUNC` where fewer are left. -/
def Obligations.FieldsAreReadLeastSignificantBitFirst : Prop :=
  ∀ (n : Nat) (bs : Bits),
    (n ≤ bs.length → ∃ v, getField n bs = .ok (v, bs.drop n) ∧ ∀ i, i < n → v.getLsbD i = bs.getD i false)
      ∧ (bs.length < n → getField n bs = .error .truncated) ∧ Reject.truncated.err = .trunc

/-- The zlib header (R92, R176, R177): its fields in the bytes `CMF` and `FLG`, and how it is judged. -/
def Obligations.ZlibHeaderIsJudged : Prop :=
  (∀ bs : Bits, bs.length < 16 → decode .zlibHeader bs = .error .truncated)
    ∧ (∀ bs : Bits, 16 ≤ bs.length → fieldValue (bs.take 4) ≠ 8 → decode .zlibHeader bs = .error .notDeflate)
    ∧ (∀ (cmf flg : Byte) (rest : Bits), cmf.toNat % 16 = 8 →
        decode .zlibHeader (streamBits [cmf, flg] ++ rest) =
          .ok (.zlibHeader (cmf.extractLsb' 4 4) (flg.extractLsb' 6 2) (flg.getLsbD 5) (flg.extractLsb' 0 5), rest))
    ∧ Reject.truncated.err = .trunc ∧ Reject.notDeflate.err = .zhdr
    ∧ ∀ (s : State) (w : Infl) (cinfo : BitVec 4) (flevel : BitVec 2) (fdict : Bool) (fcheck : BitVec 5), s.Inflating w →
        let cmf := 16 * cinfo.toNat + 8
        let flg := 64 * flevel.toNat + 32 * fdict.toNat + fcheck.toNat
        let i := Instr.zlibHeader cinfo flevel fdict fcheck
        (7 < cinfo.toNat ∨ (cmf * 256 + flg) % 31 ≠ 0 → s.RaisesInData i s.dstRegion .zhdr)
          ∧ (cinfo.toNat ≤ 7 → (cmf * 256 + flg) % 31 = 0 → fdict = true → s.RaisesInData i s.dstRegion .zdict)
          ∧ (cinfo.toNat ≤ 7 → (cmf * 256 + flg) % 31 = 0 → fdict = false →
              exec i s = .next (s.withInfl { w with phase := .block }))

/-- The block headers (R94, R178 to R182): `BFINAL`, then `BTYPE`; what each kind is followed by, and `E_BTYPE` for the
reserved one. -/
def Obligations.BlockHeadersSelectTheirBody : Prop :=
  (∀ (final : Bool) (rest : Bits),
    decode .blockHeader (final :: false :: false :: rest) = .ok (.blockStored final, rest)
      ∧ decode .blockHeader (final :: true :: false :: rest) = .ok (.blockFixed final, rest)
      ∧ decode .blockHeader (final :: false :: true :: rest) = .ok (.blockDynamic final, rest)
      ∧ decode .blockHeader (final :: true :: true :: rest) = .ok (.blockReserved final, rest))
    ∧ (∀ bs : Bits, bs.length < 3 → decode .blockHeader bs = .error .truncated)
    ∧ ∀ (s : State) (w : Infl) (final : Bool), s.Inflating w →
    exec (.blockStored final) s = .next (s.withInfl { w with final := final, phase := .storedBody })
      ∧ exec (.blockFixed final) s = .next (s.withInfl { w with
          final := final
          fixed := true
          ll := buildCodes (List.replicate 144 8 ++ List.replicate 112 9 ++ List.replicate 24 7 ++ List.replicate 8 8)
          dd := buildCodes (List.replicate 32 5)
          phase := .litLenCode })
      ∧ exec (.blockDynamic final) s = .next (s.withInfl { w with final := final, fixed := false, phase := .dynCounts })
      ∧ s.RaisesInData (.blockReserved final) s.dstRegion .btype

/-- The body of a stored block (R95, R180): `LEN` and `NLEN`, little-endian; `E_STORED`; the first byte that is not there
(`E_TRUNC`, tested first) or does not fit (`E_DCAP`); else the bytes at the cursor are appended to the output and the block
ends. -/
def Obligations.StoredBlocksCopyTheirBytes : Prop :=
  (∀ (b0 b1 b2 b3 : Byte) (rest : Bits),
    decode .storedBody (streamBits [b0, b1, b2, b3] ++ rest) = .ok (.storedLen (b1 ++ b0) (b3 ++ b2), rest))
  ∧ (∀ bs : Bits, bs.length < 32 → decode .storedBody bs = .error .truncated)
  ∧ ∀ (s : State) (w : Infl) (len nlen : BitVec 16), s.Inflating w → w.Counted → w.count ≤ s.dcap.toNat →
    let n := len.toNat
    let there := (8 * s.slen.toNat - w.ipos) / 8
    let room := s.dcap.toNat - w.count
    let i := Instr.storedLen len nlen
    (nlen ≠ len ^^^ 0xFFFF#16 → s.RaisesInData i s.dstRegion .stored)
      ∧ (nlen = len ^^^ 0xFFFF#16 →
          (there < n → there ≤ room → s.RaisesInData i s.dstRegion .trunc)
            ∧ (room < n → room < there → s.RaisesInData i s.dstRegion .dcap)
            ∧ (n ≤ there → n ≤ room →
                exec i s = .next (s.withInfl { w.grownTo (w.out ++ s.memRead (s.src.toNat + w.ipos / 8) n) with
                  ipos := w.ipos + 8 * n
                  phase := if w.final then .trailer else .block })))

/-- The trailer (R205, R206, R208), four bytes, big-endian: equal to the checksum of the output, it completes the command
with the output at `DST`, `DLEN`, `ICONS` and `ADLER`; otherwise `E_ADLER`. -/
def Obligations.TrailerVerifiesAndCompletes : Prop :=
  (∀ (b0 b1 b2 b3 : Byte) (rest : Bits),
    decode .zlibTrailer (streamBits [b0, b1, b2, b3] ++ rest) = .ok (.zlibTrailer (b0 ++ b1 ++ b2 ++ b3), rest))
  ∧ (∀ bs : Bits, bs.length < 32 → decode .zlibTrailer bs = .error .truncated)
  ∧ ∀ (s : State) (w : Infl) (a : Word), s.Inflating w → w.Counted → w.count ≤ s.dcap.toNat →
    (a.toNat = adler32 w.out →
      ∃ t, exec (.zlibTrailer a) s = .next t ∧ s.SucceedsWriting t w.out
        ∧ t.icons = BitVec.ofNat 32 (w.ipos / 8) ∧ t.adler = a)
      ∧ (a.toNat ≠ adler32 w.out → s.RaisesInData (.zlibTrailer a) s.dstRegion .adler)

/-! ## INFLATE: dynamic headers -/

/-- The counts of a dynamic header (R102, R182). -/
def Obligations.DynamicCountsAreJudged : Prop :=
  (∀ bs : Bits, 14 ≤ bs.length →
    decode .dynCounts bs =
      .ok (.dynCounts (BitVec.ofNat 5 (fieldValue (bs.take 5))) (BitVec.ofNat 5 (fieldValue ((bs.drop 5).take 5)))
        (BitVec.ofNat 4 (fieldValue ((bs.drop 10).take 4))), bs.drop 14))
  ∧ (∀ bs : Bits, bs.length < 14 → decode .dynCounts bs = .error .truncated)
  ∧ ∀ (s : State) (w : Infl) (hlit hdist : BitVec 5) (hclen : BitVec 4), s.Inflating w →
    (286 < hlit.toNat + 257 ∨ 30 < hdist.toNat + 1 → s.RaisesInData (.dynCounts hlit hdist hclen) s.dstRegion .codelen)
      ∧ (hlit.toNat + 257 ≤ 286 → hdist.toNat + 1 ≤ 30 →
          exec (.dynCounts hlit hdist hclen) s = .next (s.withInfl { w with
            nlen := hlit.toNat + 257, ndist := hdist.toNat + 1, ncl := hclen.toNat + 4, phase := .dynClLens }))

/-- The code-length code (R102, R183): `ncl` fields of 3 bits; field `i` is the length of symbol `ORDER[i]`, every other
length is 0; it must be complete. -/
def Obligations.CodeLengthCodeMustBeComplete : Prop :=
  (∀ (n : Nat) (bs : Bits),
    (3 * n ≤ bs.length →
      ∃ fields, decode (.dynClLens n) bs = .ok (.dynClLens fields, bs.drop (3 * n)) ∧ fields.length = n
        ∧ ∀ i, i < n → (fields.getD i 0#3).toNat = fieldValue ((bs.drop (3 * i)).take 3))
      ∧ (bs.length < 3 * n → decode (.dynClLens n) bs = .error .truncated))
  ∧ ∀ (s : State) (w : Infl) (fields : List (BitVec 3)), s.Inflating w → 4 ≤ fields.length → fields.length ≤ 19 →
    let order := [16, 17, 18, 0, 8, 7, 9, 6, 10, 5, 11, 4, 12, 3, 13, 2, 14, 1, 15]
    ∃ cl : List Nat, cl.length = 19
      ∧ (∀ k, k < 19 → cl.getD (order.getD k 0) 0 = (fields.getD k 0#3).toNat)
      ∧ (kraft cl ≠ 2 ^ 15 → s.RaisesInData (.dynClLens fields) s.dstRegion .codelen)
      ∧ (kraft cl = 2 ^ 15 →
          exec (.dynClLens fields) s = .next (s.withInfl { w with cl := buildCodes cl, lens := [], phase := .codeLengths }))

/-- The code-length symbols (R103, R184, R185), from the stream and by what they add. -/
def Obligations.CodeLengthSymbolsAddTheirLengths : Prop :=
  (∀ bs : Bits,
    (∀ l : BitVec 4, decodeClSymbol l.toNat bs = .ok (.clLen0To15 l, bs))
      ∧ (2 ≤ bs.length →
          decodeClSymbol 16 bs = .ok (.clRepeatPrev (BitVec.ofNat 2 (fieldValue (bs.take 2))), bs.drop 2))
      ∧ (3 ≤ bs.length →
          decodeClSymbol 17 bs = .ok (.clZeros3To10 (BitVec.ofNat 3 (fieldValue (bs.take 3))), bs.drop 3))
      ∧ (7 ≤ bs.length →
          decodeClSymbol 18 bs = .ok (.clZeros11To138 (BitVec.ofNat 7 (fieldValue (bs.take 7))), bs.drop 7))
      ∧ (bs.length < 2 → decodeClSymbol 16 bs = .error .truncated)
      ∧ (bs.length < 3 → decodeClSymbol 17 bs = .error .truncated)
      ∧ (bs.length < 7 → decodeClSymbol 18 bs = .error .truncated))
  ∧ ∀ (s : State) (w : Infl), s.Inflating w →
    (∀ l, s.AddsLengths (.clLen0To15 l) w 1 l.toNat)
      ∧ (∀ e, w.lens = [] → s.RaisesInData (.clRepeatPrev e) s.dstRegion .codelen)
      ∧ (∀ e v, w.lens.getLast? = some v → s.AddsLengths (.clRepeatPrev e) w (3 + e.toNat) v)
      ∧ (∀ e, s.AddsLengths (.clZeros3To10 e) w (3 + e.toNat) 0)
      ∧ (∀ e, s.AddsLengths (.clZeros11To138 e) w (11 + e.toNat) 0)

/-! ## INFLATE: Huffman codes -/

/-- The canonical codes (R96): the code of a symbol is the sum of `2^(l - k)` over the shorter codes, of length `k`, plus the
number of symbols before it with its own length `l`. -/
def Obligations.CodesAreCanonical : Prop :=
  ∀ (lens : List Nat) (sym : Nat), (∀ l ∈ lens, l ≤ 15) → sym < lens.length → lens.getD sym 0 ≠ 0 →
    let l := lens.getD sym 0
    (buildCodes lens).codes.getD sym 0 =
      ((lens.filter fun k => k ≠ 0 && k < l).map fun k => 2 ^ (l - k)).sum + (lens.take sym).count l

/-- Decoding a canonical code (R96, R174): in a set that is not over-subscribed, the code of a symbol, most significant bit
first, decodes to that symbol and nothing after it is read. -/
def Obligations.CodesDecodeToTheirSymbols : Prop :=
  ∀ (lens : List Nat) (sym : Nat) (rest : Bits), (∀ l ∈ lens, l ≤ 15) → kraft lens ≤ 2 ^ 15 → sym < lens.length →
    lens.getD sym 0 ≠ 0 →
      let l := lens.getD sym 0
      let code := (buildCodes lens).codes.getD sym 0
      code < 2 ^ l ∧ huffmanDecode (buildCodes lens) (codeBits l code ++ rest) = .ok (sym, rest)

/-- A complete set decodes every bit sequence (R174, R184): it can run out of bits, but it never fails to match. The two
incomplete sets a dynamic block may use (R104, R200): one code of one bit decodes the bit 0 to its symbol, and the bit 1,
read, matches nothing; no code at all matches nothing and reads no bit, whatever bits there are. Matching nothing is
`E_SYMBOL`. -/
def Obligations.CompleteSetsDecodeEveryBitSequence : Prop :=
  (∀ (lens : List Nat) (bs : Bits), (∀ l ∈ lens, l ≤ 15) → kraft lens = 2 ^ 15 →
    (∃ sym rest, huffmanDecode (buildCodes lens) bs = .ok (sym, rest) ∧ sym < lens.length)
      ∨ huffmanDecode (buildCodes lens) bs = .error .truncated)
    ∧ (∀ (before after : Nat) (bs : Bits),
        let t := buildCodes (List.replicate before 0 ++ 1 :: List.replicate after 0)
        huffmanDecode t [] = .error .truncated ∧ huffmanDecode t (false :: bs) = .ok (before, bs)
          ∧ huffmanDecode t (true :: bs) = .error .noCode)
    ∧ (∀ (n : Nat) (bs : Bits), huffmanDecode (buildCodes (List.replicate n 0)) bs = .error .noCode)
    ∧ Reject.noCode.err = .symbol

/-- The fixed codes (R97, R98) by their tables. -/
def Obligations.FixedCodesNameTheirSymbols : Prop :=
  (∀ c : BitVec 8, 0x30 ≤ c.toNat → c.toNat ≤ 0xBF → Instr.NamesSymbol (.fixedLl0To143 c) (c.toNat - 0x30))
    ∧ (∀ c : BitVec 9, 0x190 ≤ c.toNat → Instr.NamesSymbol (.fixedLl144To255 c) (144 + (c.toNat - 0x190)))
    ∧ (∀ c : BitVec 7, c.toNat ≤ 0x17 → Instr.NamesSymbol (.fixedLl256To279 c) (256 + c.toNat))
    ∧ (∀ c : BitVec 8, 0xC0 ≤ c.toNat → c.toNat ≤ 0xC7 → Instr.NamesSymbol (.fixedLl280To287 c) (280 + (c.toNat - 0xC0)))
    ∧ ∀ c : BitVec 5, Instr.NamesDistance (.fixedDist0To31 c) c.toNat

/-- The decoder of the fixed codes is the decoder of the canonical sets with the lengths of R97 and R98 (R96): on every bit
sequence it reads the same bits and finds the same symbol. -/
def Obligations.FixedCodesAreTheCanonicalOnes : Prop :=
  (∀ bs : Bits,
    match huffmanDecode (buildCodes fixedLitLenLens) bs with
    | .ok (sym, rest) => ∃ i, decode .fixedLitLen bs = .ok (i, rest) ∧ Instr.NamesSymbol i sym
    | .error e => decode .fixedLitLen bs = .error e)
    ∧ ∀ bs : Bits,
      match huffmanDecode (buildCodes fixedDistLens) bs with
      | .ok (d, rest) => ∃ i, decode .fixedDist bs = .ok (i, rest) ∧ Instr.NamesDistance i d
      | .error e => decode .fixedDist bs = .error e

/-! ## INFLATE: symbols -/

/-- The symbols 0 to 256 (R99): a literal is emitted, or `E_DCAP` (R191, R204); symbol 256 ends the block (R192). -/
def Obligations.LiteralsAreEmittedAndBlocksEnd : Prop :=
  (∀ bs : Bits, (∀ b : Byte, decodeLitLenSymbol b.toNat bs = .ok (.literal b, bs))
    ∧ decodeLitLenSymbol 256 bs = .ok (.endOfBlock, bs))
  ∧ ∀ (s : State) (w : Infl), s.Inflating w →
    (∀ b, s.dcap.toNat < w.count + 1 → s.RaisesInData (.literal b) s.dstRegion .dcap)
      ∧ (∀ b, w.count + 1 ≤ s.dcap.toNat →
          exec (.literal b) s = .next (s.withInfl { w with
            hist := b :: w.hist
            count := w.count + 1
            s1 := (w.s1 + b.toNat) % 65521
            s2 := (w.s2 + (w.s1 + b.toNat) % 65521) % 65521
            phase := .litLenCode }))
      ∧ exec .endOfBlock s = .next (s.withInfl { w with phase := if w.final then .trailer else .block })

/-- The length symbols (R100, R193): each element by its base and extra field; and from the stream, a symbol 257 to 285 and
the extra field after it are the element of length `LBASE + e`. -/
def Obligations.LengthSymbolsSetTheirLength : Prop :=
  Instr.SetsLength .len257 3 ∧ Instr.SetsLength .len258 4 ∧ Instr.SetsLength .len259 5
    ∧ Instr.SetsLength .len260 6 ∧ Instr.SetsLength .len261 7 ∧ Instr.SetsLength .len262 8
    ∧ Instr.SetsLength .len263 9 ∧ Instr.SetsLength .len264 10
    ∧ (∀ e, Instr.SetsLength (.len265 e) (11 + e.toNat)) ∧ (∀ e, Instr.SetsLength (.len266 e) (13 + e.toNat))
    ∧ (∀ e, Instr.SetsLength (.len267 e) (15 + e.toNat)) ∧ (∀ e, Instr.SetsLength (.len268 e) (17 + e.toNat))
    ∧ (∀ e, Instr.SetsLength (.len269 e) (19 + e.toNat)) ∧ (∀ e, Instr.SetsLength (.len270 e) (23 + e.toNat))
    ∧ (∀ e, Instr.SetsLength (.len271 e) (27 + e.toNat)) ∧ (∀ e, Instr.SetsLength (.len272 e) (31 + e.toNat))
    ∧ (∀ e, Instr.SetsLength (.len273 e) (35 + e.toNat)) ∧ (∀ e, Instr.SetsLength (.len274 e) (43 + e.toNat))
    ∧ (∀ e, Instr.SetsLength (.len275 e) (51 + e.toNat)) ∧ (∀ e, Instr.SetsLength (.len276 e) (59 + e.toNat))
    ∧ (∀ e, Instr.SetsLength (.len277 e) (67 + e.toNat)) ∧ (∀ e, Instr.SetsLength (.len278 e) (83 + e.toNat))
    ∧ (∀ e, Instr.SetsLength (.len279 e) (99 + e.toNat)) ∧ (∀ e, Instr.SetsLength (.len280 e) (115 + e.toNat))
    ∧ (∀ e, Instr.SetsLength (.len281 e) (131 + e.toNat)) ∧ (∀ e, Instr.SetsLength (.len282 e) (163 + e.toNat))
    ∧ (∀ e, Instr.SetsLength (.len283 e) (195 + e.toNat)) ∧ (∀ e, Instr.SetsLength (.len284 e) (227 + e.toNat))
    ∧ Instr.SetsLength .len285 258
    ∧ ∀ (sym : Nat) (bs : Bits), 257 ≤ sym → sym ≤ 285 → lengthExtra.getD (sym - 257) 0 ≤ bs.length →
        let n := lengthExtra.getD (sym - 257) 0
        ∃ i, decodeLitLenSymbol sym bs = .ok (i, bs.drop n)
          ∧ Instr.SetsLength i (lengthBase.getD (sym - 257) 0 + fieldValue (bs.take n))

/-- The distance symbols (R101, R202, R203), each by its base and extra field, with the copy and its errors; and from the
stream, a symbol 0 to 29 and the extra field after it are the element of distance `DBASE + e`. -/
def Obligations.DistanceSymbolsCopyFromTheirDistance : Prop :=
  Instr.CopiesFrom .dist0 1 ∧ Instr.CopiesFrom .dist1 2 ∧ Instr.CopiesFrom .dist2 3 ∧ Instr.CopiesFrom .dist3 4
    ∧ (∀ e, Instr.CopiesFrom (.dist4 e) (5 + e.toNat)) ∧ (∀ e, Instr.CopiesFrom (.dist5 e) (7 + e.toNat))
    ∧ (∀ e, Instr.CopiesFrom (.dist6 e) (9 + e.toNat)) ∧ (∀ e, Instr.CopiesFrom (.dist7 e) (13 + e.toNat))
    ∧ (∀ e, Instr.CopiesFrom (.dist8 e) (17 + e.toNat)) ∧ (∀ e, Instr.CopiesFrom (.dist9 e) (25 + e.toNat))
    ∧ (∀ e, Instr.CopiesFrom (.dist10 e) (33 + e.toNat)) ∧ (∀ e, Instr.CopiesFrom (.dist11 e) (49 + e.toNat))
    ∧ (∀ e, Instr.CopiesFrom (.dist12 e) (65 + e.toNat)) ∧ (∀ e, Instr.CopiesFrom (.dist13 e) (97 + e.toNat))
    ∧ (∀ e, Instr.CopiesFrom (.dist14 e) (129 + e.toNat)) ∧ (∀ e, Instr.CopiesFrom (.dist15 e) (193 + e.toNat))
    ∧ (∀ e, Instr.CopiesFrom (.dist16 e) (257 + e.toNat)) ∧ (∀ e, Instr.CopiesFrom (.dist17 e) (385 + e.toNat))
    ∧ (∀ e, Instr.CopiesFrom (.dist18 e) (513 + e.toNat)) ∧ (∀ e, Instr.CopiesFrom (.dist19 e) (769 + e.toNat))
    ∧ (∀ e, Instr.CopiesFrom (.dist20 e) (1025 + e.toNat))
    ∧ (∀ e, Instr.CopiesFrom (.dist21 e) (1537 + e.toNat))
    ∧ (∀ e, Instr.CopiesFrom (.dist22 e) (2049 + e.toNat))
    ∧ (∀ e, Instr.CopiesFrom (.dist23 e) (3073 + e.toNat))
    ∧ (∀ e, Instr.CopiesFrom (.dist24 e) (4097 + e.toNat))
    ∧ (∀ e, Instr.CopiesFrom (.dist25 e) (6145 + e.toNat))
    ∧ (∀ e, Instr.CopiesFrom (.dist26 e) (8193 + e.toNat))
    ∧ (∀ e, Instr.CopiesFrom (.dist27 e) (12289 + e.toNat))
    ∧ (∀ e, Instr.CopiesFrom (.dist28 e) (16385 + e.toNat))
    ∧ (∀ e, Instr.CopiesFrom (.dist29 e) (24577 + e.toNat))
    ∧ ∀ (d : Nat) (bs : Bits), d ≤ 29 → distExtra.getD d 0 ≤ bs.length →
        let n := distExtra.getD d 0
        ∃ i, decodeDistSymbol d bs = .ok (i, bs.drop n)
          ∧ Instr.CopiesFrom i (distBase.getD d 0 + fieldValue (bs.take n))

/-- Literal/length symbols 286 and 287 and distance symbols 30 and 31 (R199, R201): `E_SYMBOL`, no extra bit read. -/
def Obligations.SymbolsWithoutMeaningRaiseESymbol : Prop :=
  ∀ (s : State) (w : Infl) (odd : Bool) (bs : Bits), s.Inflating w →
    decodeLitLenSymbol (286 + odd.toNat) bs = .ok (.ll286To287 odd, bs)
      ∧ decodeDistSymbol (30 + odd.toNat) bs = .ok (.dist30To31 odd, bs)
      ∧ s.RaisesInData (.ll286To287 odd) s.dstRegion .symbol
      ∧ s.RaisesInData (.dist30To31 odd) s.dstRegion .symbol

/-! ## INFLATE: whole runs -/

/-- A whole stream: INFLATE of one final stored block (R91, R95, R105, R175) writes its data, and reports the whole region
consumed and the checksum, in one move of the engine (R126). That the move has five internal steps, one for the command and
one for each element, is the model's choice (log 6). -/
def Obligations.InflateReturnsTheStoredData : Prop :=
  ∀ (s : State) (data : List Byte),
    s.status = Status.running → s.turns = [] → s.engine = .idle → s.cmd = 0x00000004#32 → data.length < 65536 →
    s.slen.toNat = data.length + 11 → data.length ≤ s.dcap.toNat →
    s.src.toNat + s.slen.toNat ≤ s.params.bufSize → s.dst.toNat + s.dcap.toNat ≤ s.params.bufSize →
    s.dcap.toNat = 0 ∨ s.src.toNat + s.slen.toNat ≤ s.dst.toNat ∨ s.dst.toNat + s.dcap.toNat ≤ s.src.toNat →
    s.memRead s.src.toNat s.slen.toNat = storedStream data →
      ∃ t, step { s with turns := [.engine] } = .next t ∧ runEngine 5 s = .next t ∧ s.SucceedsWriting t data
        ∧ t.icons = s.slen ∧ t.adler.toNat = adler32 data

/-- The same source bytes give the same result (R210, R135): the rest of the engine's move (R126), and one internal step of
it (log 6), of two INFLATEs whose source bytes, lengths and working state agree leaves the same status and working state
and, on success, the same output, wherever their regions lie and whatever else the two states hold. -/
def Obligations.InflateDependsOnItsSourceBytesAlone : Prop :=
  ∀ (s s' t t' : State) (w : Infl), s.Coherent → s'.Coherent → s.engine = .infl w → s'.engine = .infl w →
    s.status.busy = true → s'.status.busy = true →
    (s.turns = [] ∧ s'.turns = [] ∨ ∃ ts ts', s.turns = .engine :: ts ∧ s'.turns = .engine :: ts') →
    s.slen = s'.slen → s.dcap = s'.dcap →
    s.memRead s.src.toNat s.slen.toNat = s'.memRead s'.src.toNat s'.slen.toNat →
    step s = .next t → step s' = .next t' →
      t.status = t'.status ∧ t.engine = t'.engine
        ∧ (t.status.busy = false → t.dlen = t'.dlen)
        ∧ (t.status.busy = false → t.status.err = false →
            t.icons = t'.icons ∧ t.adler = t'.adler
              ∧ t.memRead t.dst.toNat t.dlen.toNat = t'.memRead t'.dst.toNat t'.dlen.toNat)

/-! ## MODEXP -/

/-- `modexp(m, k, n)` is `m^k` reduced modulo `n` (R225), with `m^0 = 1` for every `m`. -/
def Obligations.ModexpIsThePowerReduced : Prop :=
  ∀ m k n : Nat, 1 ≤ n → modexp m k n = m ^ k % n ∧ modexp m k n < n

/-- MODEXP (R228): the base, exponent and modulus are big-endian strings, and the result is written as the big-endian string
of exactly `DCAP` bytes. -/
def Obligations.ModexpWritesTheResult : Prop :=
  ∀ s : State, s.status = Status.running →
    let src := (s.src.toNat, s.slen.toNat)
    let exp := (s.expAddr.toNat, s.expLen.toNat)
    let mod := (s.modAddr.toNat, s.modLen.toNat)
    let dst := (s.dst.toNat, s.dcap.toNat)
    let n := be (s.memRead s.modAddr.toNat s.modLen.toNat)
    let r := be (s.memRead s.src.toNat s.slen.toNat) ^ be (s.memRead s.expAddr.toNat s.expLen.toNat) % n
    (∀ q ∈ [src, exp, mod, dst], q.2 ≤ s.params.maxOp ∧ q.1 + q.2 ≤ s.params.bufSize) →
    (∀ q ∈ [src, exp, mod], dst.2 = 0 ∨ q.2 = 0 ∨ q.1 + q.2 ≤ dst.1 ∨ dst.1 + dst.2 ≤ q.1) →
    n ≠ 0 → r < 256 ^ s.dcap.toNat →
      ∃ t, exec .modexp s = .next t ∧ s.SucceedsWriting t (serBe s.dcap.toNat r) ∧ t.dlen = s.dcap
        ∧ be (t.memRead s.dst.toNat s.dcap.toNat) = r ∧ t.icons = s.icons ∧ t.adler = s.adler

/-- The errors of MODEXP in their order (R224, R130, R226, R227, R264). -/
def Obligations.ModexpErrorsComeInTheirOrder : Prop :=
  ∀ s : State, s.status = Status.running →
    let src := (s.src.toNat, s.slen.toNat)
    let exp := (s.expAddr.toNat, s.expLen.toNat)
    let mod := (s.modAddr.toNat, s.modLen.toNat)
    let dst := (s.dst.toNat, s.dcap.toNat)
    let n := be (s.memRead s.modAddr.toNat s.modLen.toNat)
    let r := be (s.memRead s.src.toNat s.slen.toNat) ^ be (s.memRead s.expAddr.toNat s.expLen.toNat) % n
    let long := ∃ q ∈ [src, exp, mod, dst], s.params.maxOp < q.2
    let out := ∃ q ∈ [src, exp, mod, dst], s.params.bufSize < q.1 + q.2
    let laps := ∃ q ∈ [src, exp, mod], 0 < dst.2 ∧ 0 < q.2 ∧ dst.1 < q.1 + q.2 ∧ q.1 < dst.1 + dst.2
    (long → s.RaisesUnchanged .modexp .oplen)
      ∧ (¬ long → out → s.RaisesUnchanged .modexp .addr)
      ∧ (¬ long → ¬ out → laps → s.RaisesUnchanged .modexp .overlap)
      ∧ (¬ long → ¬ out → ¬ laps → n = 0 → s.RaisesInData .modexp s.dstRegion .modzero)
      ∧ (¬ long → ¬ out → ¬ laps → n ≠ 0 → 256 ^ s.dcap.toNat ≤ r → s.RaisesInData .modexp s.dstRegion .range)

/-- `be` and `ser_be` (R8): `ser_be(n, v)` is the sequence of length `n` and value `v`, and there is no other. -/
def Obligations.SerBeIsTheOnlySequenceOfItsValue : Prop :=
  ∀ (n v : Nat) (bs : List Byte), v < 256 ^ n → (bs.length = n ∧ be bs = v ↔ bs = serBe n v)

/-- RSA correctness (R230 (b)), of the unit's function: for `n` a product of two distinct primes and `e d = 1` modulo
`(p - 1) (q - 1)`, decryption returns what was encrypted. -/
def Obligations.RsaDecryptionReturnsTheMessage : Prop :=
  ∀ p q e d m : Nat, p.Prime → q.Prime → p ≠ q → e * d % ((p - 1) * (q - 1)) = 1 → m < p * q →
    modexp (modexp m e (p * q)) d (p * q) = m

/-! ## Encodings -/

/-- Decoding the encoding of a well-formed instruction gives it back and leaves the bits after it (R85 to R110). -/
def Obligations.DecodeOfEncodeIsTheInstruction : Prop :=
  ∀ (i : Instr) (rest : Bits), i.wellFormed = true → decode i.format (encode i ++ rest) = .ok (i, rest)

/-- What the decoder reads is the encoding of what it answers: no bit is dropped, and no two bit sequences are one
instruction. -/
def Obligations.EncodeOfDecodeIsTheBits : Prop :=
  ∀ (f : Format) (bs rest : Bits) (i : Instr), decode f bs = .ok (i, rest) → i.format = f ∧ bs = encode i ++ rest

/-- A few words, written out from the tables of 30_encoding.md. -/
def Obligations.WordsDecodeAsTheTablesSay : Prop :=
  decodeCommand 0x00000101#32 = .crc32Cont ∧ decodeCommand 0x00000102#32 = .illegalCmd 0x00000102#32
    -- `78 9C`: `CM = 8`, `CINFO = 7`, `FLEVEL = 2`, `FDICT = 0`, `FCHECK = 28`
    ∧ decode .zlibHeader (streamBits [0x78#8, 0x9C#8]) = .ok (.zlibHeader 7#4 2#2 false 28#5, [])
    -- in stream order `1`, then `0 1`: final, dynamic
    ∧ decode .blockHeader [true, false, true] = .ok (.blockDynamic true, [])
    -- the fixed code `11000110` of symbol 286
    ∧ decode .fixedLitLen [true, true, false, false, false, true, true, false] = .ok (.fixedLl280To287 0xC6#8, [])
    -- symbol 277 and its four extra bits, least significant first
    ∧ decodeLitLenSymbol 277 [true, false, true, true] = .ok (.len277 13#4, [])
    ∧ decodeFilterByte 4#8 = .filterPaeth ∧ decodeFilterByte 5#8 = .filterIllegal 5#8

/-! ## The whole machine -/

/-- Every step keeps a coherent state coherent: `BUF` canonical and inside its size, the invariants of `STATUS`, no working
state between commands, and a working state that fits its command, its cursor inside the source region (R23, R38, R42). -/
def Obligations.StepKeepsStatesCoherent : Prop :=
  ∀ s t : State, s.Coherent → step s = .next t → t.Coherent

/-- In a coherent state every step answers a next state, unless the host makes an access the spec puts outside itself. -/
def Obligations.CoherentStatesNeverStop : Prop :=
  ∀ s : State, s.Coherent → s.NextAccessAllowed → ∃ t, step s = .next t

/-- Every command completes (R132): a busy engine is never stuck. Its move is one step, after which `BUSY = 0` and `DONE = 1`
(R126 to R128), whatever the command and whatever turns are to come; it is where the internal steps lead (log 6). -/
def Obligations.EveryCommandCompletes : Prop :=
  (∀ s : State, s.Coherent → s.turns = [] → ∃ k t, runEngine k s = .next t ∧ t.status.busy = false ∧ t.Coherent)
    ∧ ∀ (s : State) (ts : List Turn), s.Coherent → s.status.busy = true → s.turns = .engine :: ts →
        ∃ k t, step s = .next { t with turns := ts } ∧ runEngine k { s with turns := [] } = .next t
          ∧ t.status.busy = false ∧ t.status.done = true ∧ t.engine = .idle ∧ t.Coherent

/-- Confinement (R76), for the engine's move (R126): it changes `BUF` only inside the destination region, on success only
the first `DLEN` bytes of it, on an error of stages 1 to 4 (R129) nothing. The same for an internal step, of which one that
does not complete the command changes no byte at all: this is the model's choice (logs 6 and 8), a real block may write
earlier inside the destination (R71 (d), R77). -/
def Obligations.EngineWritesStayInTheDestination : Prop :=
  (∀ (s t : State) (ts : List Turn), s.Coherent → s.status.busy = true → s.turns = .engine :: ts → step s = .next t →
    (∀ a, s.inDestination a = false → t.byteAt a = s.byteAt a)
      ∧ (t.status.err = false → s.SameOutside t { addr := s.dst.toNat, len := t.dlen.toNat })
      ∧ (∀ e ∈ [Err.cmd, .interlace, .method, .colortype, .dim, .len, .oplen, .addr, .overlap],
          t.status.err = true → t.status.errCode = e.code → s.SameBuf t)
      ∧ (decodeCommand s.cmd = .defilter → t.status.err = true → t.status.errCode = Err.dcap.code → s.SameBuf t))
    ∧ ∀ s t : State, s.Coherent → s.status.busy = true → s.turns = [] → step s = .next t →
        (∀ a, s.inDestination a = false → t.byteAt a = s.byteAt a)
          ∧ (t.status.busy = true → s.SameBuf t)
          ∧ (t.status.busy = false → t.status.err = false →
              s.SameOutside t { addr := s.dst.toNat, len := t.dlen.toNat })
          ∧ (t.status.err = true → s.engine = .idle → t.status.errCode ≠ Err.modzero.code →
              t.status.errCode ≠ Err.range.code → s.SameBuf t)

/-- The engine writes no register but its result registers (R60, R21), never the parameters (R43): the engine's move (R126)
and each internal step of it (log 6). While the command runs it changes none of them, an error leaves `ICONS`, `ADLER` and
`CRC_VAL` alone, and only an INFLATE can change the first two and only a CRC command the third. -/
def Obligations.EngineWritesOnlyResultRegisters : Prop :=
  ∀ (s t : State) (ts : List Turn), s.Coherent → s.status.busy = true →
    s.turns = .engine :: ts ∨ (s.turns = [] ∧ ts = []) → step s = .next t →
      State.SameInputs { s with turns := ts } t
        ∧ (t.status.busy = true →
            t.status = s.status ∧ t.dlen = s.dlen ∧ t.icons = s.icons ∧ t.adler = s.adler ∧ t.crcVal = s.crcVal)
        ∧ (t.status.err = true → t.dlen = 0#32 ∧ t.icons = s.icons ∧ t.adler = s.adler ∧ t.crcVal = s.crcVal)
        ∧ (decodeCommand s.cmd ≠ .inflate → t.icons = s.icons ∧ t.adler = s.adler)
        ∧ (decodeCommand s.cmd ∉ [.crc32, .crc32Cont, .crcCheck] → t.crcVal = s.crcVal)
        ∧ (decodeCommand s.cmd ≠ .crcCheck → t.status.matched = false)
end

