-- ==== Sys2Proof/Laws/State.lean ====
section
/-! SUPPORT. One lemma for each field of State and each update of it, each true by definition, so that no proof unfolds a
record update. -/

namespace Sys2Proof.Machine

/-! ## issue -/

@[simp] theorem State.issue_params (s : State) (v : Word) : (s.issue v).params = s.params := rfl
@[simp] theorem State.issue_cmd (s : State) (v : Word) : (s.issue v).cmd = v := rfl
@[simp] theorem State.issue_status (s : State) (v : Word) : (s.issue v).status = s.status.issued := rfl
@[simp] theorem State.issue_src (s : State) (v : Word) : (s.issue v).src = s.src := rfl
@[simp] theorem State.issue_slen (s : State) (v : Word) : (s.issue v).slen = s.slen := rfl
@[simp] theorem State.issue_dst (s : State) (v : Word) : (s.issue v).dst = s.dst := rfl
@[simp] theorem State.issue_dcap (s : State) (v : Word) : (s.issue v).dcap = s.dcap := rfl
@[simp] theorem State.issue_dlen (s : State) (v : Word) : (s.issue v).dlen = s.dlen := rfl
@[simp] theorem State.issue_icons (s : State) (v : Word) : (s.issue v).icons = s.icons := rfl
@[simp] theorem State.issue_imgW (s : State) (v : Word) : (s.issue v).imgW = s.imgW := rfl
@[simp] theorem State.issue_imgH (s : State) (v : Word) : (s.issue v).imgH = s.imgH := rfl
@[simp] theorem State.issue_imgFmt (s : State) (v : Word) : (s.issue v).imgFmt = s.imgFmt := rfl
@[simp] theorem State.issue_crcVal (s : State) (v : Word) : (s.issue v).crcVal = s.crcVal := rfl
@[simp] theorem State.issue_adler (s : State) (v : Word) : (s.issue v).adler = s.adler := rfl
@[simp] theorem State.issue_expAddr (s : State) (v : Word) : (s.issue v).expAddr = s.expAddr := rfl
@[simp] theorem State.issue_expLen (s : State) (v : Word) : (s.issue v).expLen = s.expLen := rfl
@[simp] theorem State.issue_modAddr (s : State) (v : Word) : (s.issue v).modAddr = s.modAddr := rfl
@[simp] theorem State.issue_modLen (s : State) (v : Word) : (s.issue v).modLen = s.modLen := rfl
@[simp] theorem State.issue_buf (s : State) (v : Word) : (s.issue v).buf = s.buf := rfl
@[simp] theorem State.issue_engine (s : State) (v : Word) : (s.issue v).engine = s.engine := rfl
@[simp] theorem State.issue_turns (s : State) (v : Word) : (s.issue v).turns = s.turns := rfl
@[simp] theorem State.issue_reads (s : State) (v : Word) : (s.issue v).reads = s.reads := rfl
@[simp] theorem State.issue_draws (s : State) (v : Word) : (s.issue v).draws = s.draws := rfl
@[simp] theorem State.issue_resets (s : State) (v : Word) : (s.issue v).resets = s.resets := rfl

/-! ## succeed -/

@[simp] theorem State.succeed_params (s : State) (n : Nat) : (s.succeed n).params = s.params := rfl
@[simp] theorem State.succeed_cmd (s : State) (n : Nat) : (s.succeed n).cmd = s.cmd := rfl
@[simp] theorem State.succeed_status (s : State) (n : Nat) : (s.succeed n).status = s.status.succeeded := rfl
@[simp] theorem State.succeed_src (s : State) (n : Nat) : (s.succeed n).src = s.src := rfl
@[simp] theorem State.succeed_slen (s : State) (n : Nat) : (s.succeed n).slen = s.slen := rfl
@[simp] theorem State.succeed_dst (s : State) (n : Nat) : (s.succeed n).dst = s.dst := rfl
@[simp] theorem State.succeed_dcap (s : State) (n : Nat) : (s.succeed n).dcap = s.dcap := rfl
@[simp] theorem State.succeed_dlen (s : State) (n : Nat) : (s.succeed n).dlen = BitVec.ofNat 32 n := rfl
@[simp] theorem State.succeed_icons (s : State) (n : Nat) : (s.succeed n).icons = s.icons := rfl
@[simp] theorem State.succeed_imgW (s : State) (n : Nat) : (s.succeed n).imgW = s.imgW := rfl
@[simp] theorem State.succeed_imgH (s : State) (n : Nat) : (s.succeed n).imgH = s.imgH := rfl
@[simp] theorem State.succeed_imgFmt (s : State) (n : Nat) : (s.succeed n).imgFmt = s.imgFmt := rfl
@[simp] theorem State.succeed_crcVal (s : State) (n : Nat) : (s.succeed n).crcVal = s.crcVal := rfl
@[simp] theorem State.succeed_adler (s : State) (n : Nat) : (s.succeed n).adler = s.adler := rfl
@[simp] theorem State.succeed_expAddr (s : State) (n : Nat) : (s.succeed n).expAddr = s.expAddr := rfl
@[simp] theorem State.succeed_expLen (s : State) (n : Nat) : (s.succeed n).expLen = s.expLen := rfl
@[simp] theorem State.succeed_modAddr (s : State) (n : Nat) : (s.succeed n).modAddr = s.modAddr := rfl
@[simp] theorem State.succeed_modLen (s : State) (n : Nat) : (s.succeed n).modLen = s.modLen := rfl
@[simp] theorem State.succeed_buf (s : State) (n : Nat) : (s.succeed n).buf = s.buf := rfl
@[simp] theorem State.succeed_engine (s : State) (n : Nat) : (s.succeed n).engine = .idle := rfl
@[simp] theorem State.succeed_turns (s : State) (n : Nat) : (s.succeed n).turns = s.turns := rfl
@[simp] theorem State.succeed_reads (s : State) (n : Nat) : (s.succeed n).reads = s.reads := rfl
@[simp] theorem State.succeed_draws (s : State) (n : Nat) : (s.succeed n).draws = s.draws := rfl
@[simp] theorem State.succeed_resets (s : State) (n : Nat) : (s.succeed n).resets = s.resets := rfl

/-! ## raise -/

@[simp] theorem State.raise_params (s : State) (e : Err) : (s.raise e).params = s.params := rfl
@[simp] theorem State.raise_cmd (s : State) (e : Err) : (s.raise e).cmd = s.cmd := rfl
@[simp] theorem State.raise_status (s : State) (e : Err) : (s.raise e).status = s.status.failed e := rfl
@[simp] theorem State.raise_src (s : State) (e : Err) : (s.raise e).src = s.src := rfl
@[simp] theorem State.raise_slen (s : State) (e : Err) : (s.raise e).slen = s.slen := rfl
@[simp] theorem State.raise_dst (s : State) (e : Err) : (s.raise e).dst = s.dst := rfl
@[simp] theorem State.raise_dcap (s : State) (e : Err) : (s.raise e).dcap = s.dcap := rfl
@[simp] theorem State.raise_dlen (s : State) (e : Err) : (s.raise e).dlen = 0#32 := rfl
@[simp] theorem State.raise_icons (s : State) (e : Err) : (s.raise e).icons = s.icons := rfl
@[simp] theorem State.raise_imgW (s : State) (e : Err) : (s.raise e).imgW = s.imgW := rfl
@[simp] theorem State.raise_imgH (s : State) (e : Err) : (s.raise e).imgH = s.imgH := rfl
@[simp] theorem State.raise_imgFmt (s : State) (e : Err) : (s.raise e).imgFmt = s.imgFmt := rfl
@[simp] theorem State.raise_crcVal (s : State) (e : Err) : (s.raise e).crcVal = s.crcVal := rfl
@[simp] theorem State.raise_adler (s : State) (e : Err) : (s.raise e).adler = s.adler := rfl
@[simp] theorem State.raise_expAddr (s : State) (e : Err) : (s.raise e).expAddr = s.expAddr := rfl
@[simp] theorem State.raise_expLen (s : State) (e : Err) : (s.raise e).expLen = s.expLen := rfl
@[simp] theorem State.raise_modAddr (s : State) (e : Err) : (s.raise e).modAddr = s.modAddr := rfl
@[simp] theorem State.raise_modLen (s : State) (e : Err) : (s.raise e).modLen = s.modLen := rfl
@[simp] theorem State.raise_buf (s : State) (e : Err) : (s.raise e).buf = s.buf := rfl
@[simp] theorem State.raise_engine (s : State) (e : Err) : (s.raise e).engine = .idle := rfl
@[simp] theorem State.raise_turns (s : State) (e : Err) : (s.raise e).turns = s.turns := rfl
@[simp] theorem State.raise_reads (s : State) (e : Err) : (s.raise e).reads = s.reads := rfl
@[simp] theorem State.raise_draws (s : State) (e : Err) : (s.raise e).draws = s.draws := rfl
@[simp] theorem State.raise_resets (s : State) (e : Err) : (s.raise e).resets = s.resets := rfl

/-! ## memWrite -/

@[simp] theorem State.memWrite_params (s : State) (a : Nat) (bs : List Byte) : (s.memWrite a bs).params = s.params := rfl
@[simp] theorem State.memWrite_cmd (s : State) (a : Nat) (bs : List Byte) : (s.memWrite a bs).cmd = s.cmd := rfl
@[simp] theorem State.memWrite_status (s : State) (a : Nat) (bs : List Byte) : (s.memWrite a bs).status = s.status := rfl
@[simp] theorem State.memWrite_src (s : State) (a : Nat) (bs : List Byte) : (s.memWrite a bs).src = s.src := rfl
@[simp] theorem State.memWrite_slen (s : State) (a : Nat) (bs : List Byte) : (s.memWrite a bs).slen = s.slen := rfl
@[simp] theorem State.memWrite_dst (s : State) (a : Nat) (bs : List Byte) : (s.memWrite a bs).dst = s.dst := rfl
@[simp] theorem State.memWrite_dcap (s : State) (a : Nat) (bs : List Byte) : (s.memWrite a bs).dcap = s.dcap := rfl
@[simp] theorem State.memWrite_dlen (s : State) (a : Nat) (bs : List Byte) : (s.memWrite a bs).dlen = s.dlen := rfl
@[simp] theorem State.memWrite_icons (s : State) (a : Nat) (bs : List Byte) : (s.memWrite a bs).icons = s.icons := rfl
@[simp] theorem State.memWrite_imgW (s : State) (a : Nat) (bs : List Byte) : (s.memWrite a bs).imgW = s.imgW := rfl
@[simp] theorem State.memWrite_imgH (s : State) (a : Nat) (bs : List Byte) : (s.memWrite a bs).imgH = s.imgH := rfl
@[simp] theorem State.memWrite_imgFmt (s : State) (a : Nat) (bs : List Byte) : (s.memWrite a bs).imgFmt = s.imgFmt := rfl
@[simp] theorem State.memWrite_crcVal (s : State) (a : Nat) (bs : List Byte) : (s.memWrite a bs).crcVal = s.crcVal := rfl
@[simp] theorem State.memWrite_adler (s : State) (a : Nat) (bs : List Byte) : (s.memWrite a bs).adler = s.adler := rfl
@[simp] theorem State.memWrite_expAddr (s : State) (a : Nat) (bs : List Byte) : (s.memWrite a bs).expAddr = s.expAddr := rfl
@[simp] theorem State.memWrite_expLen (s : State) (a : Nat) (bs : List Byte) : (s.memWrite a bs).expLen = s.expLen := rfl
@[simp] theorem State.memWrite_modAddr (s : State) (a : Nat) (bs : List Byte) : (s.memWrite a bs).modAddr = s.modAddr := rfl
@[simp] theorem State.memWrite_modLen (s : State) (a : Nat) (bs : List Byte) : (s.memWrite a bs).modLen = s.modLen := rfl
@[simp] theorem State.memWrite_buf (s : State) (a : Nat) (bs : List Byte) : (s.memWrite a bs).buf = s.buf.write a bs := rfl
@[simp] theorem State.memWrite_engine (s : State) (a : Nat) (bs : List Byte) : (s.memWrite a bs).engine = s.engine := rfl
@[simp] theorem State.memWrite_turns (s : State) (a : Nat) (bs : List Byte) : (s.memWrite a bs).turns = s.turns := rfl
@[simp] theorem State.memWrite_reads (s : State) (a : Nat) (bs : List Byte) : (s.memWrite a bs).reads = s.reads := rfl
@[simp] theorem State.memWrite_draws (s : State) (a : Nat) (bs : List Byte) : (s.memWrite a bs).draws = s.draws := rfl
@[simp] theorem State.memWrite_resets (s : State) (a : Nat) (bs : List Byte) : (s.memWrite a bs).resets = s.resets := rfl

/-! ## scramble -/

@[simp] theorem State.scramble_params (s : State) (r : Region) : (s.scramble r).params = s.params := rfl
@[simp] theorem State.scramble_cmd (s : State) (r : Region) : (s.scramble r).cmd = s.cmd := rfl
@[simp] theorem State.scramble_status (s : State) (r : Region) : (s.scramble r).status = s.status := rfl
@[simp] theorem State.scramble_src (s : State) (r : Region) : (s.scramble r).src = s.src := rfl
@[simp] theorem State.scramble_slen (s : State) (r : Region) : (s.scramble r).slen = s.slen := rfl
@[simp] theorem State.scramble_dst (s : State) (r : Region) : (s.scramble r).dst = s.dst := rfl
@[simp] theorem State.scramble_dcap (s : State) (r : Region) : (s.scramble r).dcap = s.dcap := rfl
@[simp] theorem State.scramble_dlen (s : State) (r : Region) : (s.scramble r).dlen = s.dlen := rfl
@[simp] theorem State.scramble_icons (s : State) (r : Region) : (s.scramble r).icons = s.icons := rfl
@[simp] theorem State.scramble_imgW (s : State) (r : Region) : (s.scramble r).imgW = s.imgW := rfl
@[simp] theorem State.scramble_imgH (s : State) (r : Region) : (s.scramble r).imgH = s.imgH := rfl
@[simp] theorem State.scramble_imgFmt (s : State) (r : Region) : (s.scramble r).imgFmt = s.imgFmt := rfl
@[simp] theorem State.scramble_crcVal (s : State) (r : Region) : (s.scramble r).crcVal = s.crcVal := rfl
@[simp] theorem State.scramble_adler (s : State) (r : Region) : (s.scramble r).adler = s.adler := rfl
@[simp] theorem State.scramble_expAddr (s : State) (r : Region) : (s.scramble r).expAddr = s.expAddr := rfl
@[simp] theorem State.scramble_expLen (s : State) (r : Region) : (s.scramble r).expLen = s.expLen := rfl
@[simp] theorem State.scramble_modAddr (s : State) (r : Region) : (s.scramble r).modAddr = s.modAddr := rfl
@[simp] theorem State.scramble_modLen (s : State) (r : Region) : (s.scramble r).modLen = s.modLen := rfl
@[simp] theorem State.scramble_buf (s : State) (r : Region) : (s.scramble r).buf = s.buf.write r.addr (freeBytes s.draws r.len) := rfl
@[simp] theorem State.scramble_engine (s : State) (r : Region) : (s.scramble r).engine = s.engine := rfl
@[simp] theorem State.scramble_turns (s : State) (r : Region) : (s.scramble r).turns = s.turns := rfl
@[simp] theorem State.scramble_reads (s : State) (r : Region) : (s.scramble r).reads = s.reads := rfl
@[simp] theorem State.scramble_draws (s : State) (r : Region) : (s.scramble r).draws = s.draws + r.len := rfl
@[simp] theorem State.scramble_resets (s : State) (r : Region) : (s.scramble r).resets = s.resets := rfl

/-! ## raiseData -/

@[simp] theorem State.raiseData_params (s : State) (r : Region) (e : Err) : (s.raiseData r e).params = s.params := rfl
@[simp] theorem State.raiseData_cmd (s : State) (r : Region) (e : Err) : (s.raiseData r e).cmd = s.cmd := rfl
@[simp] theorem State.raiseData_status (s : State) (r : Region) (e : Err) : (s.raiseData r e).status = s.status.failed e := rfl
@[simp] theorem State.raiseData_src (s : State) (r : Region) (e : Err) : (s.raiseData r e).src = s.src := rfl
@[simp] theorem State.raiseData_slen (s : State) (r : Region) (e : Err) : (s.raiseData r e).slen = s.slen := rfl
@[simp] theorem State.raiseData_dst (s : State) (r : Region) (e : Err) : (s.raiseData r e).dst = s.dst := rfl
@[simp] theorem State.raiseData_dcap (s : State) (r : Region) (e : Err) : (s.raiseData r e).dcap = s.dcap := rfl
@[simp] theorem State.raiseData_dlen (s : State) (r : Region) (e : Err) : (s.raiseData r e).dlen = 0#32 := rfl
@[simp] theorem State.raiseData_icons (s : State) (r : Region) (e : Err) : (s.raiseData r e).icons = s.icons := rfl
@[simp] theorem State.raiseData_imgW (s : State) (r : Region) (e : Err) : (s.raiseData r e).imgW = s.imgW := rfl
@[simp] theorem State.raiseData_imgH (s : State) (r : Region) (e : Err) : (s.raiseData r e).imgH = s.imgH := rfl
@[simp] theorem State.raiseData_imgFmt (s : State) (r : Region) (e : Err) : (s.raiseData r e).imgFmt = s.imgFmt := rfl
@[simp] theorem State.raiseData_crcVal (s : State) (r : Region) (e : Err) : (s.raiseData r e).crcVal = s.crcVal := rfl
@[simp] theorem State.raiseData_adler (s : State) (r : Region) (e : Err) : (s.raiseData r e).adler = s.adler := rfl
@[simp] theorem State.raiseData_expAddr (s : State) (r : Region) (e : Err) : (s.raiseData r e).expAddr = s.expAddr := rfl
@[simp] theorem State.raiseData_expLen (s : State) (r : Region) (e : Err) : (s.raiseData r e).expLen = s.expLen := rfl
@[simp] theorem State.raiseData_modAddr (s : State) (r : Region) (e : Err) : (s.raiseData r e).modAddr = s.modAddr := rfl
@[simp] theorem State.raiseData_modLen (s : State) (r : Region) (e : Err) : (s.raiseData r e).modLen = s.modLen := rfl
@[simp] theorem State.raiseData_buf (s : State) (r : Region) (e : Err) : (s.raiseData r e).buf = s.buf.write r.addr (freeBytes s.draws r.len) := rfl
@[simp] theorem State.raiseData_engine (s : State) (r : Region) (e : Err) : (s.raiseData r e).engine = .idle := rfl
@[simp] theorem State.raiseData_turns (s : State) (r : Region) (e : Err) : (s.raiseData r e).turns = s.turns := rfl
@[simp] theorem State.raiseData_reads (s : State) (r : Region) (e : Err) : (s.raiseData r e).reads = s.reads := rfl
@[simp] theorem State.raiseData_draws (s : State) (r : Region) (e : Err) : (s.raiseData r e).draws = s.draws + r.len := rfl
@[simp] theorem State.raiseData_resets (s : State) (r : Region) (e : Err) : (s.raiseData r e).resets = s.resets := rfl

/-! ## inflateDone -/

@[simp] theorem State.inflateDone_params (s : State) (w : Infl) : (s.inflateDone w).params = s.params := rfl
@[simp] theorem State.inflateDone_cmd (s : State) (w : Infl) : (s.inflateDone w).cmd = s.cmd := rfl
@[simp] theorem State.inflateDone_status (s : State) (w : Infl) : (s.inflateDone w).status = s.status.succeeded := rfl
@[simp] theorem State.inflateDone_src (s : State) (w : Infl) : (s.inflateDone w).src = s.src := rfl
@[simp] theorem State.inflateDone_slen (s : State) (w : Infl) : (s.inflateDone w).slen = s.slen := rfl
@[simp] theorem State.inflateDone_dst (s : State) (w : Infl) : (s.inflateDone w).dst = s.dst := rfl
@[simp] theorem State.inflateDone_dcap (s : State) (w : Infl) : (s.inflateDone w).dcap = s.dcap := rfl
@[simp] theorem State.inflateDone_dlen (s : State) (w : Infl) : (s.inflateDone w).dlen = BitVec.ofNat 32 w.count := rfl
@[simp] theorem State.inflateDone_icons (s : State) (w : Infl) : (s.inflateDone w).icons = BitVec.ofNat 32 (w.ipos / 8) := rfl
@[simp] theorem State.inflateDone_imgW (s : State) (w : Infl) : (s.inflateDone w).imgW = s.imgW := rfl
@[simp] theorem State.inflateDone_imgH (s : State) (w : Infl) : (s.inflateDone w).imgH = s.imgH := rfl
@[simp] theorem State.inflateDone_imgFmt (s : State) (w : Infl) : (s.inflateDone w).imgFmt = s.imgFmt := rfl
@[simp] theorem State.inflateDone_crcVal (s : State) (w : Infl) : (s.inflateDone w).crcVal = s.crcVal := rfl
@[simp] theorem State.inflateDone_adler (s : State) (w : Infl) : (s.inflateDone w).adler = BitVec.ofNat 32 (adlerValue w.s1 w.s2) := rfl
@[simp] theorem State.inflateDone_expAddr (s : State) (w : Infl) : (s.inflateDone w).expAddr = s.expAddr := rfl
@[simp] theorem State.inflateDone_expLen (s : State) (w : Infl) : (s.inflateDone w).expLen = s.expLen := rfl
@[simp] theorem State.inflateDone_modAddr (s : State) (w : Infl) : (s.inflateDone w).modAddr = s.modAddr := rfl
@[simp] theorem State.inflateDone_modLen (s : State) (w : Infl) : (s.inflateDone w).modLen = s.modLen := rfl
@[simp] theorem State.inflateDone_buf (s : State) (w : Infl) : (s.inflateDone w).buf = s.buf.write s.dst.toNat w.out := rfl
@[simp] theorem State.inflateDone_engine (s : State) (w : Infl) : (s.inflateDone w).engine = .idle := rfl
@[simp] theorem State.inflateDone_turns (s : State) (w : Infl) : (s.inflateDone w).turns = s.turns := rfl
@[simp] theorem State.inflateDone_reads (s : State) (w : Infl) : (s.inflateDone w).reads = s.reads := rfl
@[simp] theorem State.inflateDone_draws (s : State) (w : Infl) : (s.inflateDone w).draws = s.draws := rfl
@[simp] theorem State.inflateDone_resets (s : State) (w : Infl) : (s.inflateDone w).resets = s.resets := rfl

/-! ## observe -/

@[simp] theorem State.observe_params (s : State) (v : Word) : (s.observe v).params = s.params := rfl
@[simp] theorem State.observe_cmd (s : State) (v : Word) : (s.observe v).cmd = s.cmd := rfl
@[simp] theorem State.observe_status (s : State) (v : Word) : (s.observe v).status = s.status := rfl
@[simp] theorem State.observe_src (s : State) (v : Word) : (s.observe v).src = s.src := rfl
@[simp] theorem State.observe_slen (s : State) (v : Word) : (s.observe v).slen = s.slen := rfl
@[simp] theorem State.observe_dst (s : State) (v : Word) : (s.observe v).dst = s.dst := rfl
@[simp] theorem State.observe_dcap (s : State) (v : Word) : (s.observe v).dcap = s.dcap := rfl
@[simp] theorem State.observe_dlen (s : State) (v : Word) : (s.observe v).dlen = s.dlen := rfl
@[simp] theorem State.observe_icons (s : State) (v : Word) : (s.observe v).icons = s.icons := rfl
@[simp] theorem State.observe_imgW (s : State) (v : Word) : (s.observe v).imgW = s.imgW := rfl
@[simp] theorem State.observe_imgH (s : State) (v : Word) : (s.observe v).imgH = s.imgH := rfl
@[simp] theorem State.observe_imgFmt (s : State) (v : Word) : (s.observe v).imgFmt = s.imgFmt := rfl
@[simp] theorem State.observe_crcVal (s : State) (v : Word) : (s.observe v).crcVal = s.crcVal := rfl
@[simp] theorem State.observe_adler (s : State) (v : Word) : (s.observe v).adler = s.adler := rfl
@[simp] theorem State.observe_expAddr (s : State) (v : Word) : (s.observe v).expAddr = s.expAddr := rfl
@[simp] theorem State.observe_expLen (s : State) (v : Word) : (s.observe v).expLen = s.expLen := rfl
@[simp] theorem State.observe_modAddr (s : State) (v : Word) : (s.observe v).modAddr = s.modAddr := rfl
@[simp] theorem State.observe_modLen (s : State) (v : Word) : (s.observe v).modLen = s.modLen := rfl
@[simp] theorem State.observe_buf (s : State) (v : Word) : (s.observe v).buf = s.buf := rfl
@[simp] theorem State.observe_engine (s : State) (v : Word) : (s.observe v).engine = s.engine := rfl
@[simp] theorem State.observe_turns (s : State) (v : Word) : (s.observe v).turns = s.turns := rfl
@[simp] theorem State.observe_reads (s : State) (v : Word) : (s.observe v).reads = v :: s.reads := rfl
@[simp] theorem State.observe_draws (s : State) (v : Word) : (s.observe v).draws = s.draws := rfl
@[simp] theorem State.observe_resets (s : State) (v : Word) : (s.observe v).resets = s.resets := rfl

/-! ## withInfl -/

@[simp] theorem State.withInfl_params (s : State) (w : Infl) : (s.withInfl w).params = s.params := rfl
@[simp] theorem State.withInfl_cmd (s : State) (w : Infl) : (s.withInfl w).cmd = s.cmd := rfl
@[simp] theorem State.withInfl_status (s : State) (w : Infl) : (s.withInfl w).status = s.status := rfl
@[simp] theorem State.withInfl_src (s : State) (w : Infl) : (s.withInfl w).src = s.src := rfl
@[simp] theorem State.withInfl_slen (s : State) (w : Infl) : (s.withInfl w).slen = s.slen := rfl
@[simp] theorem State.withInfl_dst (s : State) (w : Infl) : (s.withInfl w).dst = s.dst := rfl
@[simp] theorem State.withInfl_dcap (s : State) (w : Infl) : (s.withInfl w).dcap = s.dcap := rfl
@[simp] theorem State.withInfl_dlen (s : State) (w : Infl) : (s.withInfl w).dlen = s.dlen := rfl
@[simp] theorem State.withInfl_icons (s : State) (w : Infl) : (s.withInfl w).icons = s.icons := rfl
@[simp] theorem State.withInfl_imgW (s : State) (w : Infl) : (s.withInfl w).imgW = s.imgW := rfl
@[simp] theorem State.withInfl_imgH (s : State) (w : Infl) : (s.withInfl w).imgH = s.imgH := rfl
@[simp] theorem State.withInfl_imgFmt (s : State) (w : Infl) : (s.withInfl w).imgFmt = s.imgFmt := rfl
@[simp] theorem State.withInfl_crcVal (s : State) (w : Infl) : (s.withInfl w).crcVal = s.crcVal := rfl
@[simp] theorem State.withInfl_adler (s : State) (w : Infl) : (s.withInfl w).adler = s.adler := rfl
@[simp] theorem State.withInfl_expAddr (s : State) (w : Infl) : (s.withInfl w).expAddr = s.expAddr := rfl
@[simp] theorem State.withInfl_expLen (s : State) (w : Infl) : (s.withInfl w).expLen = s.expLen := rfl
@[simp] theorem State.withInfl_modAddr (s : State) (w : Infl) : (s.withInfl w).modAddr = s.modAddr := rfl
@[simp] theorem State.withInfl_modLen (s : State) (w : Infl) : (s.withInfl w).modLen = s.modLen := rfl
@[simp] theorem State.withInfl_buf (s : State) (w : Infl) : (s.withInfl w).buf = s.buf := rfl
@[simp] theorem State.withInfl_engine (s : State) (w : Infl) : (s.withInfl w).engine = .infl w := rfl
@[simp] theorem State.withInfl_turns (s : State) (w : Infl) : (s.withInfl w).turns = s.turns := rfl
@[simp] theorem State.withInfl_reads (s : State) (w : Infl) : (s.withInfl w).reads = s.reads := rfl
@[simp] theorem State.withInfl_draws (s : State) (w : Infl) : (s.withInfl w).draws = s.draws := rfl
@[simp] theorem State.withInfl_resets (s : State) (w : Infl) : (s.withInfl w).resets = s.resets := rfl

/-! ## applyReset -/

@[simp] theorem State.applyReset_params (s : State) : (s.applyReset).params = s.params := rfl
@[simp] theorem State.applyReset_cmd (s : State) : (s.applyReset).cmd = 0#32 := rfl
@[simp] theorem State.applyReset_status (s : State) : (s.applyReset).status = Status.zero := rfl
@[simp] theorem State.applyReset_src (s : State) : (s.applyReset).src = 0#32 := rfl
@[simp] theorem State.applyReset_slen (s : State) : (s.applyReset).slen = 0#32 := rfl
@[simp] theorem State.applyReset_dst (s : State) : (s.applyReset).dst = 0#32 := rfl
@[simp] theorem State.applyReset_dcap (s : State) : (s.applyReset).dcap = 0#32 := rfl
@[simp] theorem State.applyReset_dlen (s : State) : (s.applyReset).dlen = 0#32 := rfl
@[simp] theorem State.applyReset_icons (s : State) : (s.applyReset).icons = 0#32 := rfl
@[simp] theorem State.applyReset_imgW (s : State) : (s.applyReset).imgW = 0#32 := rfl
@[simp] theorem State.applyReset_imgH (s : State) : (s.applyReset).imgH = 0#32 := rfl
@[simp] theorem State.applyReset_imgFmt (s : State) : (s.applyReset).imgFmt = 0#32 := rfl
@[simp] theorem State.applyReset_crcVal (s : State) : (s.applyReset).crcVal = 0#32 := rfl
@[simp] theorem State.applyReset_adler (s : State) : (s.applyReset).adler = 0#32 := rfl
@[simp] theorem State.applyReset_expAddr (s : State) : (s.applyReset).expAddr = 0#32 := rfl
@[simp] theorem State.applyReset_expLen (s : State) : (s.applyReset).expLen = 0#32 := rfl
@[simp] theorem State.applyReset_modAddr (s : State) : (s.applyReset).modAddr = 0#32 := rfl
@[simp] theorem State.applyReset_modLen (s : State) : (s.applyReset).modLen = 0#32 := rfl
@[simp] theorem State.applyReset_buf (s : State) : (s.applyReset).buf = [] := rfl
@[simp] theorem State.applyReset_engine (s : State) : (s.applyReset).engine = .idle := rfl
@[simp] theorem State.applyReset_turns (s : State) : (s.applyReset).turns = s.turns := rfl
@[simp] theorem State.applyReset_reads (s : State) : (s.applyReset).reads = s.reads := rfl
@[simp] theorem State.applyReset_draws (s : State) : (s.applyReset).draws = s.draws := rfl
@[simp] theorem State.applyReset_resets (s : State) : (s.applyReset).resets = s.resets + 1 := rfl

/-! ## The fields of STATUS -/

@[simp] theorem Status.issued_eq (t : Status) : t.issued = Status.running := rfl
@[simp] theorem Status.running_succeeded : Status.running.succeeded = Status.success false := rfl
@[simp] theorem Status.running_setMatch_succeeded (b : Bool) : (Status.running.setMatch b).succeeded = Status.success b := rfl
@[simp] theorem Status.running_failed (e : Err) : Status.running.failed e = Status.failure e := rfl
@[simp] theorem Status.running_busy : Status.running.busy = true := rfl
@[simp] theorem Status.success_busy (b : Bool) : (Status.success b).busy = false := rfl
@[simp] theorem Status.failure_busy (e : Err) : (Status.failure e).busy = false := rfl

/-- No error has the code 0 (60_exceptions.md R241). -/
theorem Err.code_ne_zero (e : Err) : e.code ≠ 0#8 := by
  cases e <;> decide

end Sys2Proof.Machine
end

