-- ==== Sys2Proof/Laws/Memory.lean ====
section
/-! SUPPORT. The buffer: every operation keeps the canonical form, and what a read gives after a write. -/

namespace Sys2Proof.Machine

theorem Memory.wf_nil : Memory.wf [] := List.Pairwise.nil

theorem cellsAt_bounds (bs : List Byte) (a : Nat) (c : Host.Cell) (h : c ∈ cellsAt a bs) :
    a ≤ c.1 ∧ c.1 < a + bs.length := by
  induction bs generalizing a with
  | nil => simp [cellsAt] at h
  | cons b bs ih =>
    rcases List.mem_cons.1 h with rfl | h
    · simp
    · have := ih (a + 1) h
      simp only [List.length_cons]
      omega

theorem cellsAt_wf (bs : List Byte) (a : Nat) : Memory.wf (cellsAt a bs) := by
  induction bs generalizing a with
  | nil => exact List.Pairwise.nil
  | cons b bs ih =>
    refine List.Pairwise.cons (fun c hc => ?_) (ih (a + 1))
    have := cellsAt_bounds bs (a + 1) c hc
    show a < c.1
    omega

/-- A write keeps the canonical form (log 2). -/
theorem Memory.write_wf (m : Memory) (a : Nat) (bs : List Byte) (h : m.wf) : (m.write a bs).wf := by
  unfold Memory.write Memory.wf
  rw [List.append_assoc]
  refine List.pairwise_append.2 ⟨h.filter _, List.pairwise_append.2 ⟨cellsAt_wf bs a, h.filter _, ?_⟩, ?_⟩
  · intro c hc d hd
    have h1 := cellsAt_bounds bs a c hc
    have h2 := (List.mem_filter.1 hd).2
    simp only [decide_eq_true_eq] at h2
    omega
  · intro c hc d hd
    have h1 := (List.mem_filter.1 hc).2
    simp only [decide_eq_true_eq] at h1
    rcases List.mem_append.1 hd with hd | hd
    · have h2 := cellsAt_bounds bs a d hd
      omega
    · have h2 := (List.mem_filter.1 hd).2
      simp only [decide_eq_true_eq] at h2
      omega

/-- The memory of reset has the canonical form. -/
theorem State.resetWith_wf (p : Params) : (State.resetWith p).buf.wf := Memory.wf_nil

/-- Where the cells of a write lie. -/
theorem Memory.mem_write (m : Memory) (a : Nat) (bs : List Byte) (c : Host.Cell) (h : c ∈ m.write a bs) :
    c ∈ m ∨ (a ≤ c.1 ∧ c.1 < a + bs.length) := by
  unfold Memory.write at h
  rcases List.mem_append.1 h with h | h
  · rcases List.mem_append.1 h with h | h
    · exact .inl (List.mem_filter.1 h).1
    · exact .inr (cellsAt_bounds bs a c h)
  · exact .inl (List.mem_filter.1 h).1

theorem Memory.read?_append (m n : Memory) (k : Nat) :
    Memory.read? (m ++ n) k = (Memory.read? m k).or (Memory.read? n k) := by
  induction m with
  | nil => simp [Memory.read?]
  | cons c m ih =>
    obtain ⟨a, b⟩ := c
    simp only [List.cons_append, Memory.read?]
    split
    · simp
    · exact ih

theorem Memory.read?_filter (m : Memory) (p : Nat → Bool) (k : Nat) :
    Memory.read? (m.filter fun c => p c.1) k = if p k then Memory.read? m k else none := by
  induction m with
  | nil => simp [Memory.read?]
  | cons c m ih =>
    obtain ⟨a, b⟩ := c
    by_cases hk : a = k
    · subst hk
      by_cases hp : p a
      · simp [hp, Memory.read?]
      · rw [List.filter_cons_of_neg (by simpa using hp), ih]
        simp [hp]
    · by_cases hp : p a
      · rw [List.filter_cons_of_pos (by simpa using hp)]
        simp [Memory.read?, hk, ih]
      · rw [List.filter_cons_of_neg (by simpa using hp), ih]
        simp [Memory.read?, hk]

theorem read?_cellsAt (bs : List Byte) (a k : Nat) :
    Memory.read? (cellsAt a bs) k = if a ≤ k then bs[k - a]? else none := by
  induction bs generalizing a with
  | nil => simp [cellsAt, Memory.read?]
  | cons b bs ih =>
    simp only [cellsAt, Memory.read?]
    by_cases hk : a = k
    · simp [hk]
    · rw [if_neg hk, ih (a + 1)]
      by_cases hle : a ≤ k
      · have : k - a = (k - (a + 1)) + 1 := by omega
        rw [if_pos hle, if_pos (by omega), this, List.getElem?_cons_succ]
      · rw [if_neg hle, if_neg (by omega)]

/-- A read after a write: the byte written inside the write, what was there outside it (R9). -/
theorem Memory.read?_write (m : Memory) (a : Nat) (bs : List Byte) (k : Nat) :
    (m.write a bs).read? k = if a ≤ k ∧ k < a + bs.length then bs[k - a]? else m.read? k := by
  unfold Memory.write
  rw [Memory.read?_append, Memory.read?_append, read?_cellsAt,
    Memory.read?_filter m (fun x => decide (x < a)) k, Memory.read?_filter m (fun x => decide (a + bs.length ≤ x)) k]
  by_cases h1 : a ≤ k
  · by_cases h2 : k < a + bs.length
    · have h3 : k - a < bs.length := by omega
      simp [h1, h2, Nat.not_lt.2 h1, List.getElem?_eq_getElem h3]
    · have h3 : bs.length ≤ k - a := by omega
      simp [h1, h2, Nat.not_lt.2 h1, List.getElem?_eq_none h3, Nat.le_of_not_lt h2]
  · have h2 : k < a := by omega
    have h3 : ¬ a + bs.length ≤ k := by omega
    simp [h1, h2, h3]

/-- `BUF[k]` after a write, inside it. -/
theorem State.byteAt_memWrite_inside (s : State) (a : Nat) (bs : List Byte) (i : Nat) (h : i < bs.length) :
    (s.memWrite a bs).byteAt (a + i) = bs[i] := by
  unfold State.byteAt
  rw [State.memWrite_buf, Memory.read?_write, if_pos ⟨by omega, by omega⟩]
  simp [List.getElem?_eq_getElem h]

/-- `BUF[k]` after a write, outside it. -/
theorem State.byteAt_memWrite_outside (s : State) (a : Nat) (bs : List Byte) (k : Nat)
    (h : ¬ (a ≤ k ∧ k < a + bs.length)) : (s.memWrite a bs).byteAt k = s.byteAt k := by
  unfold State.byteAt State.unlistedByte
  rw [State.memWrite_buf, Memory.read?_write, if_neg h, State.memWrite_resets]

/-- A byte depends on the buffer and the reset count alone. -/
theorem State.byteAt_congr (s t : State) (hb : t.buf = s.buf) (hr : t.resets = s.resets) (k : Nat) :
    t.byteAt k = s.byteAt k := by
  unfold State.byteAt State.unlistedByte
  rw [hb, hr]

theorem State.memRead_length (s : State) (a n : Nat) : (s.memRead a n).length = n := by
  induction n generalizing a with
  | zero => rfl
  | succ n ih => simp [State.memRead, ih]

theorem State.memRead_getElem (s : State) (a n i : Nat) (h : i < (s.memRead a n).length) :
    (s.memRead a n)[i] = s.byteAt (a + i) := by
  induction n generalizing a i with
  | zero => simp [State.memRead] at h
  | succ n ih =>
    cases i with
    | zero => simp [State.memRead]
    | succ i =>
      simp only [State.memRead, List.getElem_cons_succ]
      rw [ih]
      congr 1
      omega

theorem freeBytes_length (k n : Nat) : (freeBytes k n).length = n := by
  induction n generalizing k with
  | zero => rfl
  | succ n ih => simp [freeBytes, ih]

theorem freeBytes_getElem (k n i : Nat) (h : i < (freeBytes k n).length) : (freeBytes k n)[i] = Config.freeByte (k + i) := by
  induction n generalizing k i with
  | zero => simp [freeBytes] at h
  | succ n ih =>
    cases i with
    | zero => simp [freeBytes]
    | succ i =>
      simp only [freeBytes, List.getElem_cons_succ]
      rw [ih]
      congr 1
      omega

end Sys2Proof.Machine
end

