-- ==== Sys2Proof/Laws/Ops.lean ====
section
/-! SUPPORT. One lemma for each shared operation of the meanings, saying once what it can do. -/

namespace Sys2Proof.Machine

/-! ## Errors -/

/-- An error of the data stage (R76, R128): what `raiseData` does, whatever the region. -/
theorem State.raiseData_spec (s : State) (r : Region) (e : Err) (h : s.status = Status.running) :
    s.FailsInData (s.raiseData r e) r e := by
  refine ⟨⟨rfl, rfl, rfl, rfl, rfl, rfl, rfl, rfl, rfl, rfl, rfl, rfl, rfl, rfl, rfl, rfl⟩, rfl, rfl, rfl, ?_, rfl, rfl, ?_,
    rfl, ?_⟩
  · rw [State.raiseData_status, h, Status.running_failed]
  · intro a ha
    rw [← State.byteAt_memWrite_outside s r.addr (freeBytes s.draws r.len) a (by rw [freeBytes_length]; exact ha)]
    exact State.byteAt_congr _ _ rfl rfl a
  · intro i hi
    have hl : i < (freeBytes s.draws r.len).length := by rw [freeBytes_length]; exact hi
    rw [← freeBytes_getElem s.draws r.len i hl, ← State.byteAt_memWrite_inside s r.addr _ i hl]
    exact State.byteAt_congr _ _ rfl rfl _

/-- An error of stages 1 to 4 (R128). -/
theorem State.raise_spec (s : State) (e : Err) (h : s.status = Status.running) : s.FailsUnchanged (s.raise e) e := by
  show s.raise e = _
  simp [State.raise, h]

/-! ## Regions -/

/-- Region validity as an inequality (R66). -/
theorem State.holds_iff (s : State) (r : Region) : s.holds r = true ↔ r.addr + r.len ≤ s.params.bufSize :=
  decide_eq_true_iff

theorem State.not_holds_iff (s : State) (r : Region) : s.holds r = false ↔ s.params.bufSize < r.addr + r.len := by
  rw [← Bool.not_eq_true, State.holds_iff, Nat.not_le]

/-- Overlap as inequalities (R67). -/
theorem Region.overlaps_iff (r t : Region) :
    r.overlaps t = true ↔ 0 < r.len ∧ 0 < t.len ∧ r.addr < t.addr + t.len ∧ t.addr < r.addr + r.len := by
  unfold Region.overlaps
  simp only [Bool.and_eq_true, decide_eq_true_eq, and_assoc]

theorem Region.not_overlaps_iff (r t : Region) :
    r.overlaps t = false ↔ r.len = 0 ∨ t.len = 0 ∨ t.addr + t.len ≤ r.addr ∨ r.addr + r.len ≤ t.addr := by
  rw [← Bool.not_eq_true, Region.overlaps_iff]
  omega

/-- Which sets a dynamic block may use (R104), as a proposition. -/
theorem acceptableSet_iff (lens : List Nat) (allowEmpty : Bool) :
    acceptableSet lens allowEmpty = true ↔ SetAllowed lens (allowEmpty = true) := by
  unfold acceptableSet SetAllowed Config.maxBits
  simp only [Bool.or_eq_true, Bool.and_eq_true, beq_iff_eq, decide_eq_true_eq]
  rw [and_comm (a := List.filter _ lens = [])]

/-! ## Elements of the stream -/

/-- If `inflating` answers a next state, an INFLATE was in flight with its regions in `BUF`, and the state is what the element
leaves. -/
theorem inflating_next (s t : State) (k : Infl → Except Err Infl) (h : inflating s k = .next t) :
    ∃ w, s.engine = .infl w ∧ s.inflRegionsValid = true ∧ t = s.afterElement (k w) := by
  unfold inflating at h
  split at h
  · next w hw =>
    split at h
    · next hv =>
      injection h with h
      exact ⟨w, hw, hv, h.symm⟩
    · cases h
  · cases h

/-- With an INFLATE in flight an element answers a next state. -/
theorem inflating_eq (s : State) (w : Infl) (k : Infl → Except Err Infl) (h : s.Inflating w) :
    inflating s k = .next (s.afterElement (k w)) := by
  obtain ⟨he, h1, h2, -⟩ := h
  unfold inflating
  rw [he]
  simp [State.inflRegionsValid, h1, h2]

theorem State.afterElement_ok (s : State) (w : Infl) : s.afterElement (.ok w) = s.withInfl w := rfl

theorem State.afterElement_error (s : State) (e : Err) : s.afterElement (.error e) = s.raiseData s.dstRegion e := rfl

/-! ## Output -/

theorem adlerSums_append (s t : List Byte) : adlerSums (s ++ t) = t.foldl adlerStep (adlerSums s) := by
  unfold adlerSums
  rw [List.foldl_append]

/-- `emit` succeeds exactly when the byte fits (R204), and then appends it, counts it and sums it. -/
theorem Infl.emit_ok (cap : Nat) (w w' : Infl) (b : Byte) (h : w.emit cap b = .ok w') :
    w.count + 1 ≤ cap ∧
      w' = { w with
        hist := b :: w.hist
        count := w.count + 1
        s1 := (adlerStep (w.s1, w.s2) b).1
        s2 := (adlerStep (w.s1, w.s2) b).2 } := by
  unfold Infl.emit at h
  split at h
  · cases h
  · injection h with h
    exact ⟨by omega, h.symm⟩

/-- The only error of `emit` (R204). -/
theorem Infl.emit_error (cap : Nat) (w : Infl) (b : Byte) (e : Err) (h : w.emit cap b = .error e) :
    e = .dcap ∧ cap < w.count + 1 := by
  unfold Infl.emit at h
  split at h
  · next hc =>
    injection h with h
    exact ⟨h.symm, hc⟩
  · cases h

theorem Infl.emit_eq (cap : Nat) (w : Infl) (b : Byte) (h : w.count + 1 ≤ cap) :
    w.emit cap b = .ok { w with
        hist := b :: w.hist
        count := w.count + 1
        s1 := (adlerStep (w.s1, w.s2) b).1
        s2 := (adlerStep (w.s1, w.s2) b).2 } := by
  unfold Infl.emit
  rw [if_neg (by omega)]

/-- What the operations on the working state keep: the bookkeeping of the output, the capacity, and the cursor's place. -/
structure Infl.Advances (s : State) (w w' : Infl) : Prop where
  counted : w.Counted → w'.Counted
  capacity : w.count ≤ s.dcap.toNat → w'.count ≤ s.dcap.toNat
  forward : w.ipos ≤ w'.ipos
  inside : w.ipos ≤ 8 * s.slen.toNat → w'.ipos ≤ 8 * s.slen.toNat

theorem Infl.Advances.trans {s : State} {w w' w'' : Infl} (h : w.Advances s w') (h' : w'.Advances s w'') :
    w.Advances s w'' :=
  ⟨fun c => h'.counted (h.counted c), fun c => h'.capacity (h.capacity c), Nat.le_trans h.forward h'.forward,
    fun c => h'.inside (h.inside c)⟩

/-- A change of the working state that leaves the output and the cursor alone. -/
theorem Infl.Advances.of_same {s : State} {w w' : Infl} (h1 : w'.hist = w.hist) (h2 : w'.count = w.count)
    (h3 : w'.s1 = w.s1) (h4 : w'.s2 = w.s2) (h5 : w'.ipos = w.ipos) : w.Advances s w' := by
  refine ⟨?_, ?_, Nat.le_of_eq h5.symm, ?_⟩
  · rintro ⟨c1, c2⟩
    refine ⟨by rw [h2, h1, c1], ?_⟩
    show (w'.s1, w'.s2) = adlerSums w'.hist.reverse
    rw [h1, h3, h4]
    exact c2
  · rw [h2]; exact id
  · rw [h5]; exact id

theorem Infl.emit_advances {s : State} {w w' : Infl} {b : Byte} (h : w.emit s.dcap.toNat b = .ok w') : w.Advances s w' := by
  obtain ⟨hc, rfl⟩ := Infl.emit_ok _ _ _ _ h
  refine ⟨?_, fun _ => hc, Nat.le_refl _, id⟩
  rintro ⟨c1, c2⟩
  refine ⟨by simp [c1], ?_⟩
  show _ = adlerSums (b :: w.hist).reverse
  rw [List.reverse_cons, adlerSums_append, ← show (w.s1, w.s2) = adlerSums w.hist.reverse from c2]
  rfl

theorem copyBack_advances {s : State} {dist : Nat} (n : Nat) :
    ∀ {w w' : Infl}, copyBack s.dcap.toNat dist n w = .ok w' → w.Advances s w' := by
  induction n with
  | zero =>
    intro w w' h
    injection h with h
    subst h
    exact .of_same rfl rfl rfl rfl rfl
  | succ n ih =>
    intro w w' h
    unfold copyBack at h
    split at h
    · next w1 h1 => exact (Infl.emit_advances h1).trans (ih h)
    · cases h

theorem copyStored_advances {s : State} (n : Nat) :
    ∀ {w w' : Infl}, copyStored s n w = .ok w' → w.Advances s w' := by
  induction n with
  | zero =>
    intro w w' h
    injection h with h
    subst h
    exact .of_same rfl rfl rfl rfl rfl
  | succ n ih =>
    intro w w' h
    unfold copyStored at h
    split at h
    · cases h
    · next hb =>
      split at h
      · next w1 h1 =>
        have h2 := Infl.emit_advances h1
        have hpos : w1.ipos = w.ipos := by obtain ⟨-, rfl⟩ := Infl.emit_ok _ _ _ _ h1; rfl
        have h3 : w.Advances s { w1 with ipos := w.ipos + 8 } :=
          ⟨h2.counted, h2.capacity, Nat.le_add_right _ _, fun _ => by show w.ipos + 8 ≤ _; omega⟩
        exact h3.trans (ih h)
      · cases h

/-! ## Rows -/

/-- If `defiltering` answers a next state, a DEFILTER was in flight at a row of its image with its regions in `BUF`. -/
theorem defiltering_next (s t : State) (k : Filt → Result) (h : defiltering s k = .next t) :
    ∃ f, s.engine = .filt f ∧ f.row < f.height ∧ s.holds (s.filtSource f) = true ∧ s.holds (s.filtDest f) = true
      ∧ k f = .next t := by
  unfold defiltering at h
  split at h
  · next f hf =>
    split at h
    · next hv =>
      simp only [Bool.and_eq_true, decide_eq_true_eq] at hv
      exact ⟨f, hf, hv.1.1, hv.1.2, hv.2, h⟩
    · cases h
  · cases h

/-- With a DEFILTER in flight a filter-type byte runs. -/
theorem defiltering_eq (s : State) (f : Filt) (k : Filt → Result) (h : s.Defiltering f) : defiltering s k = k f := by
  obtain ⟨he, h1, h2, h3, -⟩ := h
  unfold defiltering
  rw [he]
  simp [h1, h2, h3]

theorem reconLoop_length (k : FilterKind) (bpp : Nat) (raw : List Byte) :
    ∀ left aboveLeft above, (reconLoop k bpp left aboveLeft above raw).length = raw.length := by
  induction raw with
  | nil => intros; rfl
  | cons x xs ih => intros; simp [reconLoop, ih]

/-- A rebuilt row has as many bytes as its raw row. -/
theorem reconRow_length (k : FilterKind) (bpp : Nat) (above raw : List Byte) :
    (reconRow k bpp above raw).length = raw.length :=
  reconLoop_length k bpp raw _ _ _

/-! ## Integers -/

theorem serBe_length (n v : Nat) : (serBe n v).length = n := by
  induction n generalizing v with
  | zero => rfl
  | succ n ih => simp [serBe, ih]

theorem fieldBits_length (n v : Nat) : (fieldBits n v).length = n := by
  induction n generalizing v with
  | zero => rfl
  | succ n ih => simp [fieldBits, ih]

end Sys2Proof.Machine
end

