-- ==== Sys2Proof/Laws/Effect.lean ====
section
/-! SUPPORT. Everything one instruction can do to the state, said once: if `exec i s` answers a next state, that state is one
of the effects below. Invariants are proved by cases on the effect, not by unfolding `exec`. -/

namespace Sys2Proof.Machine

/-- The effects of one instruction (40_command_protocol.md R127, R128 and the meanings). -/
inductive Effect (s : State) : State → Prop
  /-- NOP and the CRC commands: success, with a new `CRC_VAL` or `MATCH` -/
  | quick (c : Word) (st : Status) (h : st = s.status ∨ ∃ b, st = s.status.setMatch b) :
      Effect s ({ s with crcVal := c, status := st }.succeed 0)
  /-- an error of stages 1 to 4 -/
  | failed (e : Err) : Effect s (s.raise e)
  /-- MODEXP, an error of the data stage -/
  | modexpFailed (e : Err) (h : s.modexpRegionsValid = true) (ho : s.modexpOverlap = false) :
      Effect s (s.raiseData s.dstRegion e)
  /-- MODEXP, success -/
  | modexpDone (r : Nat) (h : s.modexpRegionsValid = true) (ho : s.modexpOverlap = false) :
      Effect s ((s.memWrite s.dst.toNat (serBe s.dcap.toNat r)).succeed s.dcap.toNat)
  /-- DEFILTER starts -/
  | filtStarted (bpp : Nat) (hp : s.defilterParams = .ok bpp) (h1 : s.holds s.srcRegion = true)
      (h2 : s.holds (s.pixelRegion bpp) = true) (ho : (s.pixelRegion bpp).overlaps s.srcRegion = false) :
      Effect s { s with engine := .filt (s.filtStart bpp) }
  /-- INFLATE starts -/
  | inflStarted (h1 : s.holds s.srcRegion = true) (h2 : s.holds s.dstRegion = true)
      (ho : s.dstRegion.overlaps s.srcRegion = false) : Effect s (s.withInfl Infl.start)
  /-- an element of the stream -/
  | element (w w' : Infl) (he : s.engine = .infl w) (hv : s.inflRegionsValid = true) (ha : w.Advances s w') :
      Effect s (s.withInfl w')
  /-- an element of the stream with an error -/
  | elementFailed (w : Infl) (e : Err) (he : s.engine = .infl w) (hv : s.inflRegionsValid = true) :
      Effect s (s.raiseData s.dstRegion e)
  /-- the trailer, success -/
  | inflDone (w : Infl) (he : s.engine = .infl w) (hv : s.inflRegionsValid = true) : Effect s (s.inflateDone w)
  /-- a row that is not the last -/
  | rowDone (f : Filt) (k : FilterKind) (he : s.engine = .filt f) (hr : f.row + 1 < f.height) :
      Effect s { s with engine := .filt (f.addRow (reconRow k f.bpp f.above (s.rawRow f))) }
  /-- the last row -/
  | filtDone (f : Filt) (k : FilterKind) (he : s.engine = .filt f) (hr : f.row < f.height) (hl : f.height ≤ f.row + 1)
      (hd : s.holds (s.filtDest f) = true) :
      Effect s ((s.memWrite s.dst.toNat (f.addRow (reconRow k f.bpp f.above (s.rawRow f))).pixels).succeed
        (f.height * f.rowBytes))
  /-- an illegal filter-type byte -/
  | filtFailed (f : Filt) (he : s.engine = .filt f) (hd : s.holds (s.filtDest f) = true) :
      Effect s (s.raiseData (s.filtDest f) .filter)

/-- An element whose operation keeps the bookkeeping has an effect of the two kinds above. -/
theorem inflating_effect {s t : State} {k : Infl → Except Err Infl} (h : inflating s k = .next t)
    (hk : ∀ w w', k w = .ok w' → w.Advances s w') : Effect s t := by
  obtain ⟨w, he, hv, rfl⟩ := inflating_next s t k h
  cases hw : k w with
  | ok w' => exact .element w w' he hv (hk w w' hw)
  | error e => exact .elementFailed w e he hv

theorem crcFrom_effect {s t : State} {c : Word} (h : crcFrom c s = .next t) : Effect s t := by
  unfold crcFrom at h
  split at h <;> injection h with h <;> subst h
  · exact .quick _ _ (.inl rfl)
  · exact .failed _

theorem execCrcCheck_effect {s t : State} (h : execCrcCheck s = .next t) : Effect s t := by
  unfold execCrcCheck at h
  split at h <;> injection h with h <;> subst h
  · exact .quick _ _ (.inr ⟨_, rfl⟩)
  · exact .failed _

theorem execModexp_effect {s t : State} (h : execModexp s = .next t) : Effect s t := by
  unfold execModexp at h
  split at h
  · injection h with h; subst h; exact .failed _
  split at h
  · injection h with h; subst h; exact .failed _
  next h1 =>
  split at h
  · injection h with h; subst h; exact .failed _
  next h2 =>
  have h1' : s.modexpRegionsValid = true := by simpa using h1
  have h2' : s.modexpOverlap = false := by simpa using h2
  unfold modexpData at h
  split at h
  · injection h with h; subst h; exact .modexpFailed _ h1' h2'
  simp only at h
  split at h <;> injection h with h <;> subst h
  · exact .modexpFailed _ h1' h2'
  · exact .modexpDone _ h1' h2'

theorem execDefilter_effect {s t : State} (h : execDefilter s = .next t) : Effect s t := by
  unfold execDefilter at h
  split at h
  · injection h with h; subst h; exact .failed _
  next bpp hp =>
  split at h
  · injection h with h; subst h; exact .failed _
  next h1 =>
  split at h
  · injection h with h; subst h; exact .failed _
  next h2 =>
  injection h with h; subst h
  simp only [Bool.not_eq_true', Bool.not_eq_false, Bool.and_eq_true] at h1
  exact .filtStarted bpp hp h1.1 h1.2 (by simpa using h2)

theorem execInflate_effect {s t : State} (h : execInflate s = .next t) : Effect s t := by
  unfold execInflate at h
  split at h
  · injection h with h; subst h; exact .failed _
  next h1 =>
  split at h
  · injection h with h; subst h; exact .failed _
  next h2 =>
  injection h with h; subst h
  simp only [Bool.not_eq_true', Bool.not_eq_false, Bool.and_eq_true] at h1
  exact .inflStarted h1.1 h1.2 (by simpa using h2)

theorem execZlibTrailer_effect {s t : State} {a : Word} (h : execZlibTrailer a s = .next t) : Effect s t := by
  unfold execZlibTrailer at h
  split at h
  · next w he =>
    split at h
    · next hv =>
      split at h <;> injection h with h <;> subst h
      · exact .inflDone w he hv
      · exact .elementFailed w _ he hv
    · cases h
  · cases h

theorem rebuildRow_effect {s t : State} {k : FilterKind} (h : rebuildRow k s = .next t) : Effect s t := by
  obtain ⟨f, he, hr, -, hd, h⟩ := defiltering_next _ _ _ h
  injection h with h
  subst h
  unfold State.afterRow
  split
  · next hl => exact .rowDone f k he hl
  · next hl => exact .filtDone f k he hr (Nat.le_of_not_lt hl) hd

theorem execFilterIllegal_effect {s t : State} {b : Byte} (h : execFilterIllegal b s = .next t) : Effect s t := by
  obtain ⟨f, he, -, -, hd, h⟩ := defiltering_next _ _ _ h
  injection h with h
  subst h
  exact .filtFailed f he hd

theorem Infl.endBlock_advances (s : State) (w : Infl) : w.Advances s w.endBlock := .of_same rfl rfl rfl rfl rfl

theorem Infl.finishLengths_advances {s : State} {w w' : Infl} (h : w.finishLengths = .ok w') : w.Advances s w' := by
  unfold Infl.finishLengths at h
  split at h
  · cases h
  split at h
  · cases h
  split at h
  · cases h
  injection h with h
  subst h
  exact .of_same rfl rfl rfl rfl rfl

theorem Infl.addLengths_advances {s : State} {w w' : Infl} {n v : Nat} (h : w.addLengths n v = .ok w') : w.Advances s w' := by
  unfold Infl.addLengths at h
  simp only at h
  split at h
  · cases h
  split at h
  · have h2 := Infl.finishLengths_advances (s := s) h
    exact Infl.Advances.trans (w' := { w with lens := w.lens ++ List.replicate n v }) (.of_same rfl rfl rfl rfl rfl) h2
  · injection h with h
    subst h
    exact .of_same rfl rfl rfl rfl rfl

theorem lengthSymbol_effect {s t : State} {n : Nat} (h : lengthSymbol n s = .next t) : Effect s t :=
  inflating_effect h fun _ _ hw => by injection hw with hw; subst hw; exact .of_same rfl rfl rfl rfl rfl

theorem fixedSymbol_effect {s t : State} {n : Nat} (h : fixedSymbol n s = .next t) : Effect s t :=
  inflating_effect h fun _ _ hw => by injection hw with hw; subst hw; exact .of_same rfl rfl rfl rfl rfl

theorem distanceSymbol_effect {s t : State} {n : Nat} (h : distanceSymbol n s = .next t) : Effect s t :=
  inflating_effect h fun w w' hw => by
    split at hw
    · cases hw
    split at hw
    · next w1 h1 =>
      injection hw with hw
      subst hw
      exact (copyBack_advances _ h1).trans (.of_same rfl rfl rfl rfl rfl)
    · cases hw

/-- Everything one instruction can do. -/
theorem exec_effect (i : Instr) (s t : State) (h : exec i s = .next t) : Effect s t := by
  cases i with
  | nop => injection h with h; subst h; exact .quick _ _ (.inl rfl)
  | crc32 | crc32Cont => exact crcFrom_effect h
  | crcCheck => exact execCrcCheck_effect h
  | defilter => exact execDefilter_effect h
  | inflate => exact execInflate_effect h
  | modexp => exact execModexp_effect h
  | illegalCmd w => injection h with h; subst h; exact .failed _
  | zlibHeader _ _ _ _ =>
    refine inflating_effect h fun _ _ hw => ?_
    split at hw
    · cases hw
    split at hw
    · cases hw
    injection hw with hw; subst hw; exact .of_same rfl rfl rfl rfl rfl
  | blockStored _ | blockFixed _ | blockDynamic _ | endOfBlock | fixedDist0To31 _ =>
    exact inflating_effect h fun _ _ hw => by injection hw with hw; subst hw; exact .of_same rfl rfl rfl rfl rfl
  | blockReserved _ | ll286To287 _ | dist30To31 _ => exact inflating_effect h fun _ _ hw => by cases hw
  | storedLen _ _ =>
    refine inflating_effect h fun _ _ hw => ?_
    split at hw
    · cases hw
    split at hw
    · next w1 h1 =>
      injection hw with hw; subst hw
      exact (copyStored_advances _ h1).trans (Infl.endBlock_advances _ _)
    · cases hw
  | dynCounts _ _ _ | dynClLens _ =>
    refine inflating_effect h fun _ _ hw => ?_
    split at hw
    · cases hw
    injection hw with hw; subst hw; exact .of_same rfl rfl rfl rfl rfl
  | clLen0To15 _ | clZeros3To10 _ | clZeros11To138 _ => exact inflating_effect h fun _ _ hw => Infl.addLengths_advances hw
  | clRepeatPrev _ =>
    refine inflating_effect h fun _ _ hw => ?_
    split at hw
    · cases hw
    · exact Infl.addLengths_advances hw
  | fixedLl0To143 _ | fixedLl144To255 _ | fixedLl256To279 _ | fixedLl280To287 _ => exact fixedSymbol_effect h
  | literal _ =>
    refine inflating_effect h fun _ _ hw => ?_
    split at hw
    · next w1 h1 =>
      injection hw with hw; subst hw
      exact (Infl.emit_advances h1).trans (.of_same rfl rfl rfl rfl rfl)
    · cases hw
  | zlibTrailer _ => exact execZlibTrailer_effect h
  | filterNone | filterSub | filterUp | filterAverage | filterPaeth => exact rebuildRow_effect h
  | filterIllegal b => exact execFilterIllegal_effect (b := b) h
  | _ => first | exact lengthSymbol_effect h | exact distanceSymbol_effect h

end Sys2Proof.Machine
end

