-- ==== Sys2Proof/Laws/Engine.lean ====
section
/-! SUPPORT. The engine's move and its internal steps: what each can do, said once. -/

namespace Sys2Proof.Machine

/-! ## One internal step -/

/-- What is fetched runs on a state with the same turns. -/
theorem fetch_turns {s s' : State} {i : Instr} (h : fetch s = .run i s') : s'.turns = s.turns := by
  unfold fetch fetchElement fetchRow at h
  repeat' split at h
  all_goals first | (cases h; rfl) | cases h

/-- Bits that are no element complete the command on a state with the same turns. -/
theorem fetch_complete_turns {s s' : State} (h : fetch s = .complete s') : s'.turns = s.turns := by
  unfold fetch fetchElement fetchRow at h
  repeat' split at h
  all_goals first | (cases h; rfl) | cases h

/-- No instruction touches the turns to come. -/
theorem Effect.turns_eq {s t : State} (h : Effect s t) : t.turns = s.turns := by
  cases h <;> rfl

/-- If an internal step answers a next state, it is an effect of the instruction fetched, or the completion for bits that are no
element. -/
theorem engineStep_next {s t : State} (h : engineStep s = .next t) :
    (∃ i s', fetch s = .run i s' ∧ Effect s' t) ∨ fetch s = .complete t := by
  unfold engineStep at h
  split at h
  · next i s' hf => exact .inl ⟨i, s', hf, exec_effect i s' t h⟩
  · next s' hf => injection h with h; exact .inr (h ▸ hf)
  · cases h

/-- An internal step keeps the turns to come. -/
theorem engineStep_turns {s t : State} (h : engineStep s = .next t) : t.turns = s.turns := by
  rcases engineStep_next h with ⟨i, s', hf, he⟩ | hf
  · rw [he.turns_eq, fetch_turns hf]
  · exact fetch_complete_turns hf

/-! ## Internal steps up to the completion -/

@[simp] theorem runCommand_zero (s : State) : runCommand 0 s = .next s := rfl

/-- A completed command takes no further step. -/
theorem runCommand_done (n : Nat) (s : State) (h : s.status.busy = false) : runCommand n s = .next s := by
  cases n <;> simp [runCommand, h]

/-- A command in flight takes one. -/
theorem runCommand_succ (n : Nat) (s t : State) (h : s.status.busy = true) (hs : engineStep s = .next t) :
    runCommand (n + 1) s = runCommand n t := by
  simp [runCommand, h, hs]

/-- What every internal step of a command in flight keeps, the run of them keeps. -/
theorem runCommand_keeps (P : State → Prop)
    (hP : ∀ s t, P s → s.status.busy = true → engineStep s = .next t → P t) :
    ∀ (n : Nat) (s t : State), P s → runCommand n s = .next t → P t
  | 0, s, t, hs, h => by
    injection h with h
    exact h ▸ hs
  | n + 1, s, t, hs, h => by
    cases hb : s.status.busy with
    | false =>
      rw [runCommand_done _ _ hb] at h
      injection h with h
      exact h ▸ hs
    | true =>
      simp only [runCommand, hb, if_true] at h
      split at h
      · next u hu => exact runCommand_keeps P hP n u t (hP s u hs hb hu) h
      · cases h
      · cases h

/-- If every state with `P` has an internal step that answers a next state with `P`, so has the run of them. -/
theorem runCommand_next (P : State → Prop)
    (hP : ∀ s, P s → s.status.busy = true → ∃ t, engineStep s = .next t ∧ P t) :
    ∀ (n : Nat) (s : State), P s → ∃ t, runCommand n s = .next t ∧ P t
  | 0, s, hs => ⟨s, rfl, hs⟩
  | n + 1, s, hs => by
    cases hb : s.status.busy with
    | false => exact ⟨s, runCommand_done _ _ hb, hs⟩
    | true =>
      obtain ⟨u, hu, hPu⟩ := hP s hs hb
      rw [runCommand_succ n s u hb hu]
      exact runCommand_next P hP n u hPu

/-- A measure that every internal step of a command in flight lowers bounds the run: with that many steps it completes. -/
theorem runCommand_completes (P : State → Prop) (μ : State → Nat)
    (hP : ∀ s, P s → s.status.busy = true →
      ∃ t, engineStep s = .next t ∧ P t ∧ (t.status.busy = true → μ t < μ s)) :
    ∀ (n : Nat) (s : State), P s → μ s < n → ∃ t, runCommand n s = .next t ∧ P t ∧ t.status.busy = false
  | 0, _, _, h => absurd h (Nat.not_lt_zero _)
  | n + 1, s, hs, hμ => by
    cases hb : s.status.busy with
    | false => exact ⟨s, runCommand_done _ _ hb, hs, hb⟩
    | true =>
      obtain ⟨u, hu, hPu, hlt⟩ := hP s hs hb
      rw [runCommand_succ n s u hb hu]
      cases hub : u.status.busy with
      | false => exact ⟨u, runCommand_done _ _ hub, hPu, hub⟩
      | true => exact runCommand_completes P μ hP n u hPu (by have := hlt hub; omega)

/-! ## The engine's move -/

/-- If the engine's move answers a next state, its internal steps led there, and the turns to come stay. -/
theorem engineMove_next {s t : State} (h : engineMove s = .next t) :
    ∃ u, runCommand s.internalBound { s with turns := [] } = .next u ∧ t = { u with turns := s.turns } := by
  unfold engineMove at h
  split at h
  · next u hu => injection h with h; exact ⟨u, hu, h.symm⟩
  · cases h
  · cases h

/-- The engine's move keeps the turns to come. -/
theorem engineMove_turns {s t : State} (h : engineMove s = .next t) : t.turns = s.turns := by
  obtain ⟨u, -, rfl⟩ := engineMove_next h
  rfl

end Sys2Proof.Machine
end

