-- ==== Sys2Proof/Laws/PerInstr.lean ====
section
/-! SUPPORT. The family of laws stated once for every constructor: how many bits an instruction occupies (30_encoding.md R107).
A symbol element stands as its number here, so its length counts the number's bits and not those of its Huffman code. -/

namespace Sys2Proof

open Sys2Proof.Machine

/-- The bits of an instruction in its format (R86, R107): a command word 32, a symbol number of the literal/length alphabet 9,
of the distance or the code-length alphabet 5, an extra field as its tables give. -/
def Instr.encodedBits : Instr → Nat
  | .nop | .crc32 | .crc32Cont | .crcCheck | .defilter | .inflate | .modexp | .illegalCmd _ | .storedLen _ _
  | .zlibTrailer _ => 32
  | .zlibHeader _ _ _ _ | .dist24 _ | .dist25 _ => 16
  | .blockStored _ | .blockFixed _ | .blockDynamic _ | .blockReserved _ => 3
  | .dynCounts _ _ _ | .len281 _ | .len282 _ | .len283 _ | .len284 _ | .dist20 _ | .dist21 _ => 14
  | .dynClLens lens => 3 * lens.length
  | .clLen0To15 _ | .fixedDist0To31 _ | .dist0 | .dist1 | .dist2 | .dist3 | .dist30To31 _ => 5
  | .clRepeatPrev _ | .fixedLl256To279 _ | .dist6 _ | .dist7 _ => 7
  | .clZeros3To10 _ | .fixedLl0To143 _ | .fixedLl280To287 _ | .dist8 _ | .dist9 _ | .filterNone | .filterSub
  | .filterUp | .filterAverage | .filterPaeth | .filterIllegal _ => 8
  | .clZeros11To138 _ | .len273 _ | .len274 _ | .len275 _ | .len276 _ | .dist16 _ | .dist17 _ => 12
  | .fixedLl144To255 _ | .literal _ | .endOfBlock | .len257 | .len258 | .len259 | .len260 | .len261 | .len262
  | .len263 | .len264 | .len285 | .ll286To287 _ | .dist10 _ | .dist11 _ => 9
  | .len265 _ | .len266 _ | .len267 _ | .len268 _ | .dist12 _ | .dist13 _ => 10
  | .len269 _ | .len270 _ | .len271 _ | .len272 _ | .dist14 _ | .dist15 _ => 11
  | .len277 _ | .len278 _ | .len279 _ | .len280 _ | .dist18 _ | .dist19 _ => 13
  | .dist4 _ | .dist5 _ => 6
  | .dist22 _ | .dist23 _ => 15
  | .dist26 _ | .dist27 _ => 17
  | .dist28 _ | .dist29 _ => 18

theorem encodedLength_field (n v : Nat) : (fieldBits n v).length = n := fieldBits_length n v

theorem encodedLength_code (n v : Nat) : (codeBits n v).length = n := by
  rw [codeBits, List.length_reverse, fieldBits_length]

theorem encodedLength_symbol (n s k e : Nat) : (symbolBits n s k e).length = n + k := by
  rw [symbolBits, List.length_append, fieldBits_length, fieldBits_length]

namespace Laws.EncodedLength

/-- The encoding of an instruction has the bits R107 gives it. -/
def Statement (i : Instr) : Prop :=
  (encode i).length = i.encodedBits

theorem nop : Statement (.nop) := encodedLength_field _ _

theorem crc32 : Statement (.crc32) := encodedLength_field _ _

theorem crc32Cont : Statement (.crc32Cont) := encodedLength_field _ _

theorem crcCheck : Statement (.crcCheck) := encodedLength_field _ _

theorem defilter : Statement (.defilter) := encodedLength_field _ _

theorem inflate : Statement (.inflate) := encodedLength_field _ _

theorem modexp : Statement (.modexp) := encodedLength_field _ _

theorem illegalCmd (w : Word) : Statement (.illegalCmd w) := encodedLength_field _ _

theorem zlibHeader (cinfo : BitVec 4) (flevel : BitVec 2) (fdict : Bool) (fcheck : BitVec 5) : Statement (.zlibHeader cinfo flevel fdict fcheck) := by
  simp [Statement, encode, Instr.encodedBits, fieldBits_length]

theorem blockStored (final : Bool) : Statement (.blockStored final) := rfl

theorem blockFixed (final : Bool) : Statement (.blockFixed final) := rfl

theorem blockDynamic (final : Bool) : Statement (.blockDynamic final) := rfl

theorem blockReserved (final : Bool) : Statement (.blockReserved final) := rfl

theorem storedLen (len : BitVec 16) (nlen : BitVec 16) : Statement (.storedLen len nlen) := by
  simp [Statement, encode, Instr.encodedBits, fieldBits_length]

theorem dynCounts (hlit : BitVec 5) (hdist : BitVec 5) (hclen : BitVec 4) : Statement (.dynCounts hlit hdist hclen) := by
  simp [Statement, encode, Instr.encodedBits, fieldBits_length]

theorem dynClLens (lens : List (BitVec 3)) : Statement (.dynClLens lens) := by
  show (encode (.dynClLens lens)).length = 3 * lens.length
  simp only [encode]
  induction lens with
  | nil => rfl
  | cons l ls ih => simp only [List.flatMap_cons, List.length_append, fieldBits_length, ih, List.length_cons]; omega

theorem clLen0To15 (len : BitVec 4) : Statement (.clLen0To15 len) := encodedLength_field _ _

theorem clRepeatPrev (extra : BitVec 2) : Statement (.clRepeatPrev extra) := encodedLength_symbol _ _ _ _

theorem clZeros3To10 (extra : BitVec 3) : Statement (.clZeros3To10 extra) := encodedLength_symbol _ _ _ _

theorem clZeros11To138 (extra : BitVec 7) : Statement (.clZeros11To138 extra) := encodedLength_symbol _ _ _ _

theorem fixedLl0To143 (code : BitVec 8) : Statement (.fixedLl0To143 code) := encodedLength_code _ _

theorem fixedLl144To255 (code : BitVec 9) : Statement (.fixedLl144To255 code) := encodedLength_code _ _

theorem fixedLl256To279 (code : BitVec 7) : Statement (.fixedLl256To279 code) := encodedLength_code _ _

theorem fixedLl280To287 (code : BitVec 8) : Statement (.fixedLl280To287 code) := encodedLength_code _ _

theorem fixedDist0To31 (code : BitVec 5) : Statement (.fixedDist0To31 code) := encodedLength_code _ _

theorem literal (b : Byte) : Statement (.literal b) := encodedLength_field _ _

theorem endOfBlock : Statement (.endOfBlock) := encodedLength_field _ _

theorem len257 : Statement (.len257) := encodedLength_field _ _

theorem len258 : Statement (.len258) := encodedLength_field _ _

theorem len259 : Statement (.len259) := encodedLength_field _ _

theorem len260 : Statement (.len260) := encodedLength_field _ _

theorem len261 : Statement (.len261) := encodedLength_field _ _

theorem len262 : Statement (.len262) := encodedLength_field _ _

theorem len263 : Statement (.len263) := encodedLength_field _ _

theorem len264 : Statement (.len264) := encodedLength_field _ _

theorem len265 (e : BitVec 1) : Statement (.len265 e) := encodedLength_symbol _ _ _ _

theorem len266 (e : BitVec 1) : Statement (.len266 e) := encodedLength_symbol _ _ _ _

theorem len267 (e : BitVec 1) : Statement (.len267 e) := encodedLength_symbol _ _ _ _

theorem len268 (e : BitVec 1) : Statement (.len268 e) := encodedLength_symbol _ _ _ _

theorem len269 (e : BitVec 2) : Statement (.len269 e) := encodedLength_symbol _ _ _ _

theorem len270 (e : BitVec 2) : Statement (.len270 e) := encodedLength_symbol _ _ _ _

theorem len271 (e : BitVec 2) : Statement (.len271 e) := encodedLength_symbol _ _ _ _

theorem len272 (e : BitVec 2) : Statement (.len272 e) := encodedLength_symbol _ _ _ _

theorem len273 (e : BitVec 3) : Statement (.len273 e) := encodedLength_symbol _ _ _ _

theorem len274 (e : BitVec 3) : Statement (.len274 e) := encodedLength_symbol _ _ _ _

theorem len275 (e : BitVec 3) : Statement (.len275 e) := encodedLength_symbol _ _ _ _

theorem len276 (e : BitVec 3) : Statement (.len276 e) := encodedLength_symbol _ _ _ _

theorem len277 (e : BitVec 4) : Statement (.len277 e) := encodedLength_symbol _ _ _ _

theorem len278 (e : BitVec 4) : Statement (.len278 e) := encodedLength_symbol _ _ _ _

theorem len279 (e : BitVec 4) : Statement (.len279 e) := encodedLength_symbol _ _ _ _

theorem len280 (e : BitVec 4) : Statement (.len280 e) := encodedLength_symbol _ _ _ _

theorem len281 (e : BitVec 5) : Statement (.len281 e) := encodedLength_symbol _ _ _ _

theorem len282 (e : BitVec 5) : Statement (.len282 e) := encodedLength_symbol _ _ _ _

theorem len283 (e : BitVec 5) : Statement (.len283 e) := encodedLength_symbol _ _ _ _

theorem len284 (e : BitVec 5) : Statement (.len284 e) := encodedLength_symbol _ _ _ _

theorem len285 : Statement (.len285) := encodedLength_field _ _

theorem ll286To287 (odd : Bool) : Statement (.ll286To287 odd) := encodedLength_field _ _

theorem dist0 : Statement (.dist0) := encodedLength_field _ _

theorem dist1 : Statement (.dist1) := encodedLength_field _ _

theorem dist2 : Statement (.dist2) := encodedLength_field _ _

theorem dist3 : Statement (.dist3) := encodedLength_field _ _

theorem dist4 (e : BitVec 1) : Statement (.dist4 e) := encodedLength_symbol _ _ _ _

theorem dist5 (e : BitVec 1) : Statement (.dist5 e) := encodedLength_symbol _ _ _ _

theorem dist6 (e : BitVec 2) : Statement (.dist6 e) := encodedLength_symbol _ _ _ _

theorem dist7 (e : BitVec 2) : Statement (.dist7 e) := encodedLength_symbol _ _ _ _

theorem dist8 (e : BitVec 3) : Statement (.dist8 e) := encodedLength_symbol _ _ _ _

theorem dist9 (e : BitVec 3) : Statement (.dist9 e) := encodedLength_symbol _ _ _ _

theorem dist10 (e : BitVec 4) : Statement (.dist10 e) := encodedLength_symbol _ _ _ _

theorem dist11 (e : BitVec 4) : Statement (.dist11 e) := encodedLength_symbol _ _ _ _

theorem dist12 (e : BitVec 5) : Statement (.dist12 e) := encodedLength_symbol _ _ _ _

theorem dist13 (e : BitVec 5) : Statement (.dist13 e) := encodedLength_symbol _ _ _ _

theorem dist14 (e : BitVec 6) : Statement (.dist14 e) := encodedLength_symbol _ _ _ _

theorem dist15 (e : BitVec 6) : Statement (.dist15 e) := encodedLength_symbol _ _ _ _

theorem dist16 (e : BitVec 7) : Statement (.dist16 e) := encodedLength_symbol _ _ _ _

theorem dist17 (e : BitVec 7) : Statement (.dist17 e) := encodedLength_symbol _ _ _ _

theorem dist18 (e : BitVec 8) : Statement (.dist18 e) := encodedLength_symbol _ _ _ _

theorem dist19 (e : BitVec 8) : Statement (.dist19 e) := encodedLength_symbol _ _ _ _

theorem dist20 (e : BitVec 9) : Statement (.dist20 e) := encodedLength_symbol _ _ _ _

theorem dist21 (e : BitVec 9) : Statement (.dist21 e) := encodedLength_symbol _ _ _ _

theorem dist22 (e : BitVec 10) : Statement (.dist22 e) := encodedLength_symbol _ _ _ _

theorem dist23 (e : BitVec 10) : Statement (.dist23 e) := encodedLength_symbol _ _ _ _

theorem dist24 (e : BitVec 11) : Statement (.dist24 e) := encodedLength_symbol _ _ _ _

theorem dist25 (e : BitVec 11) : Statement (.dist25 e) := encodedLength_symbol _ _ _ _

theorem dist26 (e : BitVec 12) : Statement (.dist26 e) := encodedLength_symbol _ _ _ _

theorem dist27 (e : BitVec 12) : Statement (.dist27 e) := encodedLength_symbol _ _ _ _

theorem dist28 (e : BitVec 13) : Statement (.dist28 e) := encodedLength_symbol _ _ _ _

theorem dist29 (e : BitVec 13) : Statement (.dist29 e) := encodedLength_symbol _ _ _ _

theorem dist30To31 (odd : Bool) : Statement (.dist30To31 odd) := encodedLength_field _ _

theorem zlibTrailer (adler : Word) : Statement (.zlibTrailer adler) := by
  simp [Statement, encode, Instr.encodedBits, serBe, fieldBits_length]

theorem filterNone : Statement (.filterNone) := encodedLength_field _ _

theorem filterSub : Statement (.filterSub) := encodedLength_field _ _

theorem filterUp : Statement (.filterUp) := encodedLength_field _ _

theorem filterAverage : Statement (.filterAverage) := encodedLength_field _ _

theorem filterPaeth : Statement (.filterPaeth) := encodedLength_field _ _

theorem filterIllegal (b : Byte) : Statement (.filterIllegal b) := encodedLength_field _ _

end Laws.EncodedLength

end Sys2Proof
end

