-- ==== Sys2Proof/Tests/Slice0.lean ====
section
/-! SUPPORT. The model's own tests. Every expected value is the spec's: a table of 30_encoding.md, a worked example, a vector of
95_test_vectors.md (cited by its id), or arithmetic by hand from a rule. The last part holds, for every statement with
hypotheses, states and operands that meet them. -/

namespace Sys2Proof.Tests

open Sys2Proof Sys2Proof.Machine

-- One theorem at a time: side by side, hundreds of waiting kernel checks would each hold a thread.
set_option Elab.async false

/-! ## Well-formedness: an ill-formed term for each check -/

theorem test_wf_refuses_legal_word_as_illegal : (Instr.illegalCmd 0x00000101#32).wellFormed = false := by decide

theorem test_wf_admits_illegal_word : (Instr.illegalCmd 0x00000102#32).wellFormed = true := by decide

theorem test_wf_refuses_three_fields : (Instr.dynClLens [0#3, 0#3, 0#3]).wellFormed = false := by decide

theorem test_wf_refuses_twenty_fields : (Instr.dynClLens (List.replicate 20 0#3)).wellFormed = false := by decide

theorem test_wf_refuses_fixed_code_ranges :
    [Instr.fixedLl0To143 0x2F#8, .fixedLl0To143 0xC0#8, .fixedLl144To255 0x18F#9, .fixedLl256To279 0x18#7,
      .fixedLl280To287 0xBF#8, .fixedLl280To287 0xC8#8].map Instr.wellFormed = List.replicate 6 false := by
  decide

theorem test_wf_refuses_legal_filter_byte : (Instr.filterIllegal 4#8).wellFormed = false := by decide

/-! ## Decoding: words written out from the tables -/

/-- R87, and A3 to A7. -/
theorem test_decode_command_words :
    [0x00000000#32, 0x00000001#32, 0x00000101#32, 0x00000002#32, 0x00000003#32, 0x00000004#32, 0x00000005#32,
      0x00000006#32, 0x00000102#32, 0x00010001#32, 0x00000201#32, 0x000000FF#32].map decodeCommand =
      [.nop, .crc32, .crc32Cont, .crcCheck, .defilter, .inflate, .modexp, .illegalCmd 0x00000006#32,
        .illegalCmd 0x00000102#32, .illegalCmd 0x00010001#32, .illegalCmd 0x00000201#32, .illegalCmd 0x000000FF#32] := by
  decide

/-- R92: `78 9C` bit by bit, least significant first: `0001` CM = 8, `1110` CINFO = 7, `00111` FCHECK = 28, `0` FDICT,
`01` FLEVEL = 2. -/
theorem test_decode_zlib_header :
    decode .zlibHeader [false, false, false, true, true, true, true, false,
      false, false, true, true, true, false, false, true] = .ok (.zlibHeader 7#4 2#2 false 28#5, []) := by
  decide

/-- J5: `CM = 9`. -/
theorem test_decode_refuses_other_method : decode .zlibHeader (streamBits [0x79#8, 0x1A#8]) = .error .notDeflate := by decide

/-- R94: BFINAL, then BTYPE in stream order. -/
theorem test_decode_block_headers :
    [[true, false, false], [false, true, false], [true, false, true], [false, true, true]].map
        (fun bs => decoded (decode .blockHeader bs)) =
      [some (.blockStored true), some (.blockFixed false), some (.blockDynamic true), some (.blockReserved false)] := by
  decide

/-- R95: `03 00 FC FF`. -/
theorem test_decode_stored_body :
    decode .storedBody (streamBits [0x03#8, 0x00#8, 0xFC#8, 0xFF#8]) = .ok (.storedLen 3#16 0xFFFC#16, []) := by
  decide

/-- The counts of I10: `00000` HLIT = 0, `00000` HDIST = 0, `0111` HCLEN = 14; and I11's HLIT = 1. -/
theorem test_decode_counts :
    [[false, false, false, false, false, false, false, false, false, false, false, true, true, true],
      [true, false, false, false, false, false, false, false, false, false, false, true, true, true]].map
        (fun bs => decoded (decode .dynCounts bs)) =
      [some (.dynCounts 0#5 0#5 14#4), some (.dynCounts 1#5 0#5 14#4)] := by
  decide

/-- R102: four fields of three bits, `000 000 100 010`, as I10 begins. -/
theorem test_decode_code_length_code :
    decode (.dynClLens 4) [false, false, false, false, false, false, true, false, false, false, true, false]
      = .ok (.dynClLens [0#3, 0#3, 1#3, 2#3], []) := by
  decide

/-- R103: a length; symbol 16 with field 3; symbol 17 with field 5; symbol 18 with field 86, I10's `0110101`. -/
theorem test_decode_code_length_symbols :
    ([(15, []), (16, [true, true]), (17, [true, false, true]), (18, [false, true, true, false, true, false, true])]
        : List (Nat × Bits)).map (fun p => decoded (decodeClSymbol p.1 p.2)) =
      [some (.clLen0To15 15#4), some (.clRepeatPrev 3#2), some (.clZeros3To10 5#3), some (.clZeros11To138 86#7)] := by
  decide

/-- R97: the first and last code of each row; `10010001` is I5's literal 0x61. -/
theorem test_decode_fixed_literal_length_codes :
    [[false, false, true, true, false, false, false, false], [true, false, true, true, true, true, true, true],
      [true, false, false, true, false, false, false, true],
      [true, true, false, false, true, false, false, false, false], [true, true, true, true, true, true, true, true, true],
      [false, false, false, false, false, false, false], [false, false, true, false, true, true, true],
      [true, true, false, false, false, false, false, false], [true, true, false, false, false, true, true, true]].map
        (fun bs => decoded (decode .fixedLitLen bs)) =
      [some (.fixedLl0To143 0x30#8), some (.fixedLl0To143 0xBF#8), some (.fixedLl0To143 0x91#8),
        some (.fixedLl144To255 0x190#9), some (.fixedLl144To255 0x1FF#9), some (.fixedLl256To279 0x00#7),
        some (.fixedLl256To279 0x17#7), some (.fixedLl280To287 0xC0#8), some (.fixedLl280To287 0xC7#8)] := by
  decide

/-- R98: `11110` is symbol 30's code (J17). -/
theorem test_decode_fixed_distance_code :
    decode .fixedDist [true, true, true, true, false] = .ok (.fixedDist0To31 30#5, []) := by
  decide

/-- R99. -/
theorem test_decode_literals_and_end :
    [0, 0x61, 255, 256, 286, 287].map (fun n => decoded (decodeLitLenSymbol n [])) =
      [some (.literal 0x00#8), some (.literal 0x61#8), some (.literal 0xFF#8), some .endOfBlock,
        some (.ll286To287 false), some (.ll286To287 true)] := by
  decide

/-- R100: symbols 257 to 285, each with its extra field written first bit first. -/
theorem test_decode_length_symbols :
    ([
      (257, []), (258, []), (259, []), (260, []), (261, []), (262, []), (263, []), (264, []), (265, [true]),
      (266, [true]), (267, [true]), (268, [true]), (269, [true, true]), (270, [true, true]), (271, [true, true]),
      (272, [true, true]), (273, [true, false, true]), (274, [true, false, true]), (275, [true, false, true]),
      (276, [true, false, true]), (277, [true, false, false, true]), (278, [true, false, false, true]),
      (279, [true, false, false, true]), (280, [true, false, false, true]), (281, [true, false, false, false, true]),
      (282, [true, false, false, false, true]), (283, [true, false, false, false, true]),
      (284, [true, false, false, false, true]), (285, [])] : List (Nat × Bits)).map
        (fun p => decoded (decodeLitLenSymbol p.1 p.2)) =
      ([
        .len257, .len258, .len259, .len260, .len261, .len262, .len263, .len264, .len265 1#1, .len266 1#1,
        .len267 1#1, .len268 1#1, .len269 3#2, .len270 3#2, .len271 3#2, .len272 3#2, .len273 5#3, .len274 5#3,
        .len275 5#3, .len276 5#3, .len277 9#4, .len278 9#4, .len279 9#4, .len280 9#4, .len281 17#5, .len282 17#5,
        .len283 17#5, .len284 17#5, .len285] : List Instr).map some := by
  decide

/-- R101: symbols 0 to 15. -/
theorem test_decode_distance_symbols_low :
    ([
      (0, []), (1, []), (2, []), (3, []), (4, [true]), (5, [true]), (6, [true, true]), (7, [true, true]),
      (8, [true, false, true]), (9, [true, false, true]), (10, [true, false, false, true]),
      (11, [true, false, false, true]), (12, [true, false, false, false, true]),
      (13, [true, false, false, false, true]), (14, [true, false, false, false, false, true]),
      (15, [true, false, false, false, false, true])] : List (Nat × Bits)).map
        (fun p => decoded (decodeDistSymbol p.1 p.2)) =
      ([
        .dist0, .dist1, .dist2, .dist3, .dist4 1#1, .dist5 1#1, .dist6 3#2, .dist7 3#2, .dist8 5#3, .dist9 5#3,
        .dist10 9#4, .dist11 9#4, .dist12 17#5, .dist13 17#5, .dist14 33#6, .dist15 33#6] : List Instr).map some := by
  decide

/-- R101: symbols 16 to 29. -/
theorem test_decode_distance_symbols_high :
    ([
      (16, [true, false, false, false, false, false, true]), (17, [true, false, false, false, false, false, true]),
      (18, [true, false, false, false, false, false, false, true]),
      (19, [true, false, false, false, false, false, false, true]),
      (20, [true, false, false, false, false, false, false, false, true]),
      (21, [true, false, false, false, false, false, false, false, true]),
      (22, [true, false, false, false, false, false, false, false, false, true]),
      (23, [true, false, false, false, false, false, false, false, false, true]),
      (24, [true, false, false, false, false, false, false, false, false, false, true]),
      (25, [true, false, false, false, false, false, false, false, false, false, true]),
      (26, [true, false, false, false, false, false, false, false, false, false, false, true]),
      (27, [true, false, false, false, false, false, false, false, false, false, false, true]),
      (28, [true, false, false, false, false, false, false, false, false, false, false, false, true]),
      (29, [true, false, false, false, false, false, false, false, false, false, false, false, true])] : List (Nat × Bits)).map
        (fun p => decoded (decodeDistSymbol p.1 p.2)) =
      ([
        .dist16 65#7, .dist17 65#7, .dist18 129#8, .dist19 129#8, .dist20 257#9, .dist21 257#9, .dist22 513#10,
        .dist23 513#10, .dist24 1025#11, .dist25 1025#11, .dist26 2049#12, .dist27 2049#12, .dist28 4097#13,
        .dist29 4097#13] : List Instr).map some := by
  decide

/-- R101: symbols 30 and 31. -/
theorem test_decode_distance_symbols_without_meaning :
    [30, 31].map (fun d => decoded (decodeDistSymbol d [])) = [some (.dist30To31 false), some (.dist30To31 true)] := by
  decide

/-- The trailer of I1, big-endian. -/
theorem test_decode_trailer :
    decode .zlibTrailer (streamBits [0x02#8, 0x4D#8, 0x01#8, 0x27#8]) = .ok (.zlibTrailer 0x024D0127#32, []) := by
  decide

/-- R110. -/
theorem test_decode_filter_bytes :
    [0#8, 1#8, 2#8, 3#8, 4#8, 5#8, 255#8].map decodeFilterByte =
      [.filterNone, .filterSub, .filterUp, .filterAverage, .filterPaeth, .filterIllegal 5#8, .filterIllegal 255#8] := by
  decide

/-! ## Functions -/

/-- C7, C8 and C2. -/
theorem test_crc_values :
    crcUpdate 0#32 [0x31#8, 0x32#8, 0x33#8, 0x34#8, 0x35#8, 0x36#8, 0x37#8, 0x38#8, 0x39#8] = 0xCBF43926#32
      ∧ crcUpdate 0#32 [0xFF#8, 0xFF#8, 0xFF#8, 0xFF#8] = 0xFFFFFFFF#32 ∧ crcUpdate 0#32 [0#8] = 0xD202EF8D#32 := by
  decide +kernel

/-- The check values of 95_test_vectors.md section 2.3: `61` and "Wikipedia". -/
theorem test_adler_values :
    adler32 [0x61#8] = 0x00620062
      ∧ adler32 [0x57#8, 0x69#8, 0x6B#8, 0x69#8, 0x70#8, 0x65#8, 0x64#8, 0x69#8, 0x61#8] = 0x11E60398 := by
  decide +kernel

/-- F1, and R160's `a = 0, b = 0, c = 255`. -/
theorem test_paeth_values : paethPredictor 10 20 5 = 20 ∧ paethPredictor 0 0 255 = 0 := by decide

/-- R160: Average does not wrap inside. -/
theorem test_average_does_not_wrap : predictor .average 255#8 255#8 0#8 = 255 := by decide

/-- R228's example, and R225's `0^0`. -/
theorem test_modexp_values : modexp 65 17 3233 = 2790 ∧ modexp 2790 2753 3233 = 65 ∧ modexp 0 0 7 = 1 := by decide +kernel

/-- I10's code-length code: `0` for 18, `10` for 0, `11` for 1. -/
theorem test_canonical_codes :
    (buildCodes (clLengths [0, 0, 1, 2, 0, 0, 0, 0, 0, 0, 0, 0, 0, 0, 0, 0, 0, 2])).codes
      = [2, 3, 0, 0, 0, 0, 0, 0, 0, 0, 0, 0, 0, 0, 0, 0, 0, 0, 0] := by
  decide +kernel

/-! ## One step of each kind -/

/-- What a result shows of its next state. -/
def sees {α : Type} (r : Result) (f : State → α) : Option α :=
  match r with
  | .next t => some (f t)
  | _ => none

/-- A command just issued over these bytes at address 0: source after them, destination at 64. -/
def issued (cmd : Word) (bytes : List Byte) (dcap : Word) : State :=
  { State.reset.memWrite 0 bytes with
    cmd := cmd
    status := Status.running
    slen := BitVec.ofNat 32 bytes.length
    dst := 64#32
    dcap := dcap }

/-- An INFLATE in flight with this working state, over 16 source bytes. -/
def inflight (w : Infl) (dcap : Word) : State :=
  { issued 0x00000004#32 (List.replicate 16 0x61#8) dcap with engine := .infl w }

/-- A DEFILTER in flight over this stream: rows of three bytes, two of them. -/
def defilt (bytes : List Byte) (row : Nat) (rows : List (List Byte)) : State :=
  { issued 0x00000003#32 bytes 6#32 with
    imgW := 3#32
    imgH := 2#32
    engine := .filt { bpp := 1, rowBytes := 3, height := 2, row := row, rows := rows } }

/-- A2. -/
theorem test_nop : sees (exec .nop (issued 0#32 [] 0#32)) (fun t => (t.status.word, t.dlen)) = some (0x00000002#32, 0#32) := by
  decide +kernel

/-- A3. -/
theorem test_illegal_word :
    sees (exec (.illegalCmd 6#32) (issued 6#32 [] 0#32)) (fun t => t.status.word) = some 0x00003006#32 := by
  decide +kernel

/-- C9. -/
theorem test_crc32 :
    sees (exec .crc32 (issued 1#32 [0x49#8, 0x45#8, 0x4E#8, 0x44#8] 0#32)) (fun t => (t.crcVal, t.status.word))
      = some (0xAE426082#32, 0x00000002#32) := by
  decide +kernel

/-- A8. -/
theorem test_crc32_past_the_end :
    sees (exec .crc32 { issued 1#32 [] 0#32 with src := 4090#32, slen := 7#32 }) (fun t => (t.crcVal, t.status.word))
      = some (0#32, 0x00003106#32) := by
  decide +kernel

/-- C13's second command. -/
theorem test_crc32_cont :
    sees (exec .crc32Cont { issued 0x101#32 [0x35#8, 0x36#8, 0x37#8, 0x38#8, 0x39#8] 0#32 with crcVal := 0x9BE3E0A3#32 })
      (fun t => t.crcVal) = some 0xCBF43926#32 := by
  decide +kernel

/-- C16. -/
theorem test_crc_check_match :
    sees (exec .crcCheck { issued 2#32 [0x49#8, 0x45#8, 0x4E#8, 0x44#8, 0xAE#8, 0x42#8, 0x60#8, 0x82#8] 0#32 with
      slen := 4#32 }) (fun t => (t.crcVal, t.status.word)) = some (0xAE426082#32, 0x0000000A#32) := by
  decide +kernel

/-- C17. -/
theorem test_crc_check_mismatch :
    sees (exec .crcCheck { issued 2#32 [0x49#8, 0x45#8, 0x4E#8, 0x44#8, 0xAE#8, 0x42#8, 0x60#8, 0x83#8] 0#32 with
      slen := 4#32 }) (fun t => (t.crcVal, t.status.word)) = some (0xAE426082#32, 0x00000002#32) := by
  decide +kernel

/-- R152: interlace is judged first, whatever else is wrong. -/
theorem test_defilter_interlace_first :
    sees (exec .defilter { issued 3#32 [] 0#32 with imgFmt := 0x01010101#32 }) (fun t => t.status.word)
      = some 0x00002006#32 := by
  decide +kernel

/-- R228's first example: `41` to the `11` modulo `0C A1` is `0A E6`. -/
theorem test_modexp :
    sees (exec .modexp { issued 5#32 [0x41#8, 0x11#8, 0x0C#8, 0xA1#8] 2#32 with
      slen := 1#32, expAddr := 1#32, expLen := 1#32, modAddr := 2#32, modLen := 2#32 })
      (fun t => (t.memRead 64 2, t.dlen, t.status.word)) = some ([0x0A#8, 0xE6#8], 2#32, 0x00000002#32) := by
  decide +kernel

/-- R229: with no modulus bytes the modulus is 0. -/
theorem test_modexp_modulus_zero :
    sees (exec .modexp { issued 5#32 [0x41#8] 0#32 with modLen := 0#32 }) (fun t => t.status.word) = some 0x00003306#32 := by
  decide +kernel

/-- R158's example: Sub over `0A 0A 0A` gives `0A 14 1E`, here as the first of two rows. -/
theorem test_filter_sub :
    sees (exec .filterSub (defilt [1#8, 0x0A#8, 0x0A#8, 0x0A#8, 0#8, 0#8, 0#8, 0#8] 0 []))
      (fun t => match t.engine with | .filt f => (f.row, f.rows) | _ => (0, []))
      = some (1, [[0x0A#8, 0x14#8, 0x1E#8]]) := by
  decide +kernel

/-- Up adds the row above and wraps: `05 14 DC` over `0A 14 1E` is `0F 28 FA` (P2); the last row completes. -/
theorem test_filter_up_last_row :
    sees (exec .filterUp (defilt [1#8, 0x0A#8, 0x0A#8, 0x0A#8, 2#8, 0x05#8, 0x14#8, 0xDC#8] 1 [[0x0A#8, 0x14#8, 0x1E#8]]))
      (fun t => (t.memRead 64 6, t.dlen, t.status.word))
      = some ([0x0A#8, 0x14#8, 0x1E#8, 0x0F#8, 0x28#8, 0xFA#8], 6#32, 0x00000002#32) := by
  decide +kernel

/-- R159. -/
theorem test_filter_illegal :
    sees (exec (.filterIllegal 5#8) (defilt [5#8, 0#8, 0#8, 0#8, 0#8, 0#8, 0#8, 0#8] 0 []))
      (fun t => (t.status.word, t.dlen)) = some (0x00004006#32, 0#32) := by
  decide +kernel

/-- A14: source and destination share a byte. -/
theorem test_inflate_overlap :
    sees (exec .inflate { issued 4#32 (List.replicate 14 0#8) 16#32 with dst := 8#32 }) (fun t => t.status.word)
      = some 0x00003206#32 := by
  decide +kernel

/-- J7: `78 20` announces a dictionary. -/
theorem test_header_dictionary :
    sees (exec (.zlibHeader 7#4 0#2 true 0#5) (inflight Infl.start 0#32)) (fun t => t.status.word) = some 0x00001206#32 := by
  decide +kernel

/-- R203's example: output `61`, then length 9 at distance 1, gives ten bytes `61`. -/
theorem test_copy_repeats :
    sees (exec .dist0 (inflight { Infl.start with hist := [0x61#8], count := 1, s1 := 98, s2 := 98, length := 9 } 10#32))
      (fun t => match t.engine with | .infl w => (w.out, adlerValue w.s1 w.s2) | _ => ([], 0))
      = some (List.replicate 10 0x61#8, 0x14E103CB) := by
  decide +kernel

/-- J15: distance 2 with one byte output. -/
theorem test_distance_too_far :
    sees (exec .dist1 (inflight { Infl.start with hist := [0x61#8], count := 1, s1 := 98, s2 := 98, length := 3 } 16#32))
      (fun t => t.status.word) = some 0x00001706#32 := by
  decide +kernel

/-- J20: `HDIST = 30`. -/
theorem test_counts_refused :
    sees (exec (.dynCounts 0#5 30#5 0#4) (inflight Infl.start 0#32)) (fun t => t.status.word) = some 0x00001506#32 := by
  decide +kernel

/-- J24: symbol 16 with nothing before it. -/
theorem test_repeat_of_nothing :
    sees (exec (.clRepeatPrev 0#2) (inflight Infl.start 0#32)) (fun t => t.status.word) = some 0x00001506#32 := by
  decide +kernel

/-- J8. -/
theorem test_reserved_block :
    sees (exec (.blockReserved true) (inflight Infl.start 0#32)) (fun t => t.status.word) = some 0x00001306#32 := by
  decide +kernel

/-- J9. -/
theorem test_stored_complement :
    sees (exec (.storedLen 3#16 0xFEFC#16) (inflight Infl.start 3#32)) (fun t => t.status.word) = some 0x00001406#32 := by
  decide +kernel

/-- R180: both exhausted, `E_TRUNC` is first. -/
theorem test_stored_trunc_before_dcap :
    sees (exec (.storedLen 1#16 0xFFFE#16) (inflight { Infl.start with ipos := 128 } 0#32)) (fun t => t.status.word)
      = some 0x00001006#32 := by
  decide +kernel

/-- I3's end: an empty output, the checksum 1, eight bytes consumed. -/
theorem test_trailer :
    sees (exec (.zlibTrailer 1#32) (inflight { Infl.start with ipos := 64 } 0#32))
      (fun t => (t.dlen, t.icons, t.adler, t.status.word)) = some (0#32, 8#32, 1#32, 0x00000002#32) := by
  decide +kernel

/-- A17 and R125: a write while `BUSY = 1` is lost. -/
theorem test_write_while_busy :
    sees (step { issued 0#32 [] 0#32 with turns := [.host (.regWrite 0x08 4 5#32), .engine] })
      (fun t => (t.src, t.status.busy, t.turns)) = some (0#32, true, [.engine]) := by
  decide +kernel

/-- A20. -/
theorem test_unassigned_register_reads_zero :
    sees (step { State.reset with turns := [.host (.regRead 0x44 4)] }) (fun t => t.reads) = some [0#32] := by
  decide +kernel

/-- The row placed for the host is the instruction that step runs: MODEXP's command word, then a length symbol. -/
theorem test_placed_word_runs :
    sees (step (State.reset.withFetchWord 32 5)) (fun t => (t.cmd, t.status.done)) = some (5#32, true)
      ∧ sees (step (State.reset.withFetchWord 9 265)) (fun t => match t.engine with | .infl w => w.length | _ => 0)
        = some 11 := by
  decide +kernel

/-! ## Hypotheses that are met

For every statement with hypotheses, values that meet them; for a statement of several clauses, of each clause, at the edges
of its range. -/

/-- A one-byte-per-pixel image of two rows of three bytes, ready to run (P2's image). -/
def imageBytes : List Byte :=
  [1#8, 0x0A#8, 0x0A#8, 0x0A#8, 2#8, 0x05#8, 0x14#8, 0xDC#8]

/-- A DEFILTER issued over it. -/
def imageState : State :=
  { issued 3#32 imageBytes 6#32 with imgW := 3#32, imgH := 2#32 }

/-- An INFLATE issued over I1's stream. -/
def storedState : State :=
  issued 4#32 (storedStream [0x61#8, 0x62#8, 0x63#8]) 3#32

/-- A working state with one byte of output. -/
def oneByte : Infl :=
  { Infl.start with hist := [0x61#8], count := 1, s1 := 98, s2 := 98, length := 3 }

/-- One move of the engine completes an INFLATE (I1) and a DEFILTER (P2's rows), the host's next turn staying. -/
theorem test_step_engine_move_is_atomic :
    sees (step { storedState with turns := [.engine, .reset] }) (fun t => (t.status.word, t.dlen, t.memRead 64 3, t.turns))
        = some (0x00000002#32, 3#32, [0x61#8, 0x62#8, 0x63#8], [.reset])
      ∧ sees (step { imageState with turns := [.engine] }) (fun t => (t.status.word, t.memRead 64 6, t.engine))
        = some (0x00000002#32, [0x0A#8, 0x14#8, 0x1E#8, 0x0F#8, 0x28#8, 0xFA#8], .idle) := by
  decide +kernel

/-- A `WAIT` keeps its turn until `BUSY = 0`. -/
theorem test_step_wait_completes_the_command :
    sees (step { imageState with turns := [.wait] }) (fun t => (t.status.word, t.turns)) = some (0x00000002#32, [.wait])
      ∧ sees (step { imageState with status := Status.success false, turns := [.wait] }) (fun t => t.turns) = some [] := by
  decide +kernel

theorem test_met_StepRunsTheDecodedInstruction :
    imageState.status.busy = true ∧ imageState.turns = [] ∧ imageState.engine = .idle
      ∧ (defilt imageBytes 1 [[0#8, 0#8, 0#8]]).Defiltering
          { bpp := 1, rowBytes := 3, height := 2, row := 1, rows := [[0#8, 0#8, 0#8]] }
      ∧ (inflight { Infl.start with phase := .block } 4#32).Inflating { Infl.start with phase := .block }
      ∧ Infl.decodeNext { Infl.start with phase := .dynCounts, ipos := 120 }
          ((inflight Infl.start 4#32).window 120) = .error .truncated := by
  decide +kernel

theorem test_met_StepRunsTheDecodedInstruction_element :
    decoded (Infl.decodeNext { Infl.start with phase := .block }
      ((inflight Infl.start 4#32).window 0)) = some (.blockStored true) := by
  decide +kernel

/-- Symbol 16 with no length before it and with one; the two code sets of a dynamic block tell the symbol. -/
theorem test_met_StepRunsTheDecodedInstruction_phases :
    (huffmanDecode (buildCodes (List.replicate 16 0 ++ [1, 1])) [false, true, true]).toOption = some (16, [true, true])
      ∧ Infl.decodeNext
          { Infl.start with phase := .codeLengths, cl := buildCodes (List.replicate 16 0 ++ [1, 1]) } [false, true, true]
        = .error .nothingToRepeat
      ∧ decoded (Infl.decodeNext
          { Infl.start with phase := .codeLengths, lens := [7], cl := buildCodes (List.replicate 16 0 ++ [1, 1]) }
          [false, true, true]) = some (.clRepeatPrev 3#2)
      ∧ decoded (Infl.decodeNext { Infl.start with phase := .litLenCode, ll := buildCodes [1, 1], dd := buildCodes [1] }
          [true]) = some (.literal 1#8)
      ∧ decoded (Infl.decodeNext { Infl.start with phase := .distCode, ll := buildCodes [1, 1], dd := buildCodes [0, 1] }
          [false]) = some .dist1 := by
  decide +kernel

/-- J18: the single code of one bit, met with the bit 1 (the first bit of 0x61); and R200: the empty distance set, with no bit
left to read. Both are `E_SYMBOL`. -/
theorem test_step_incomplete_distance_sets :
    sees (step (inflight { Infl.start with phase := .distCode, dd := buildCodes [1] } 4#32)) (fun t => t.status.word)
        = some 0x00001606#32
      ∧ sees (step (inflight { Infl.start with phase := .distCode, dd := buildCodes [0], ipos := 128 } 4#32))
          (fun t => t.status.word) = some 0x00001606#32 := by
  decide +kernel

theorem test_met_EngineMovesExactlyWhileBusy :
    State.reset.status.busy = false ∧ State.reset.turns = [] ∧ (issued 0#32 [] 0#32).status.busy = true := by
  decide

theorem test_met_EngineMovesExactlyWhileBusy_move :
    imageState.status.busy = true ∧ 3 ≤ imageState.internalBound
      ∧ sees (runEngine 3 { imageState with turns := [] }) (fun t => t.status.busy) = some false := by
  decide +kernel

theorem test_met_IssueStoresTheWordAndSetsBusy :
    ∃ s : State, s.status.busy = false ∧ s.turns = [.host (.regWrite s.params.regBase 4 0xFFFFFFFF#32)] :=
  ⟨{ State.reset with turns := [.host (.regWrite 0 4 0xFFFFFFFF#32)] }, by decide⟩

theorem test_met_WritesWhileBusyAreIgnored :
    ∃ s : State, s.status.busy = true ∧ 4095 < s.params.bufSize
      ∧ s.turns = [.host (.bufWrite (s.params.bufBase + 4095) 1#8)] :=
  ⟨{ issued 0#32 [] 0#32 with turns := [.host (.bufWrite 4095 1#8)] }, by decide⟩

theorem test_met_WritesWhileBusyAreIgnored_command :
    ∃ s : State, s.status.busy = true ∧ s.turns = [.host (.regWrite (s.params.regBase + 4 * 0) 4 1#32)] :=
  ⟨{ issued 0#32 [] 0#32 with turns := [.host (.regWrite 0 4 1#32)] }, by decide⟩

theorem test_met_IssueStoresTheWordAndSetsBusy_operands :
    ∃ s t : State, s.Coherent ∧ s.status.busy = true ∧ step s = .next t ∧ t.status.busy = true :=
  ⟨{ issued 4#32 [] 0#32 with turns := [.host (.regRead 8 4)] },
    { issued 4#32 [] 0#32 with reads := [0#32] },
    ⟨by decide, by decide, by decide, by decide, by decide, trivial⟩, by decide, rfl, by decide⟩

theorem test_met_RegisterWriteStoresOnlyItsRegister_busy :
    ∃ s : State, s.status.busy = true ∧ s.turns = [.host (.regWrite (s.params.regBase + 4 * 2) 4 7#32)] :=
  ⟨{ issued 4#32 [] 0#32 with turns := [.host (.regWrite 8 4 7#32)] }, by decide⟩

theorem test_met_IllegalWordsRaiseECmd_written :
    ∃ s : State, s.status.busy = false ∧ s.engine = .idle
      ∧ s.turns = [.host (.regWrite s.params.regBase 4 0x00000102#32)] :=
  ⟨{ State.reset with turns := [.host (.regWrite 0 4 0x00000102#32)] }, by decide⟩

theorem test_met_RegisterWriteStoresOnlyItsRegister (i : Nat) :
    ∃ s : State, s.status.busy = false ∧ s.turns = [.host (.regWrite (s.params.regBase + 4 * i) 4 7#32)] :=
  ⟨{ State.reset with turns := [.host (.regWrite (0 + 4 * i) 4 7#32)] }, rfl, rfl⟩

/-- Indices 4 and 5 are `DST` and `DCAP`, the next states those the statement lists; 6 and 17 take no write. -/
theorem test_met_RegisterWriteStoresOnlyItsRegister_fields :
    sees (step { State.reset with turns := [.host (.regWrite 16 4 7#32)] }) (fun t => (t.dst, t.dcap)) = some (7#32, 0#32)
      ∧ sees (step { State.reset with turns := [.host (.regWrite 20 4 7#32)] }) (fun t => (t.dst, t.dcap)) = some (0#32, 7#32)
      ∧ ∀ i ∈ [6, 17], i ∉ [0, 2, 3, 4, 5, 8, 9, 10, 11, 13, 14, 15, 16] := by
  decide

theorem test_met_RegisterReadChangesNothing :
    (∃ s : State, s.turns = [.host (.regRead (s.params.regBase + 4 * 16) 4)] ∧ s.modLen = 9#32)
      ∧ ∃ s : State, s.turns = [.host (.regRead (s.params.regBase + 4 * 17) 4)] :=
  ⟨⟨{ State.reset with turns := [.host (.regRead 64 4)], modLen := 9#32 }, by decide⟩,
    ⟨{ State.reset with turns := [.host (.regRead 68 4)] }, by decide⟩⟩

theorem test_met_BufferAccessesReachOneByte :
    (∃ s : State, s.status.busy = false ∧ 0 < s.params.bufSize ∧ s.turns = [.host (.bufWrite (s.params.bufBase + 0) 1#8)])
      ∧ ∃ s : State, 69 < s.params.bufSize ∧ s.turns = [.host (.bufRead (s.params.bufBase + 69))] ∧ s.status.busy = true
          ∧ s.inDestination 69 = true ∧ s.inDestination 70 = false :=
  ⟨⟨{ State.reset with turns := [.host (.bufWrite 0 1#8)] }, by decide⟩,
    ⟨{ imageState with turns := [.host (.bufRead 69)] }, by decide +kernel⟩⟩

theorem test_met_AccessesOutsideTheSpecAreRefused :
    (∃ s : State, s.turns = [.host (.regWrite 4 2 0#32)])
      ∧ (∃ s : State, (2 - s.params.regBase) % 4 ≠ 0 ∧ s.turns = [.host (.regRead 2 4)])
      ∧ (∃ s : State, 3 < s.params.regBase ∧ s.turns = [.host (.regRead 3 4)])
      ∧ ∃ s : State, s.params.bufSize ≤ 4096 ∧ s.turns = [.host (.bufRead (s.params.bufBase + 4096))] :=
  ⟨⟨{ State.reset with turns := [.host (.regWrite 4 2 0#32)] }, by decide⟩,
    ⟨{ State.reset with turns := [.host (.regRead 2 4)] }, by decide⟩,
    ⟨{ State.resetWith { Params.standard with regBase := 4 } with turns := [.host (.regRead 3 4)] }, by decide⟩,
    ⟨{ State.reset with turns := [.host (.bufRead 4096)] }, by decide⟩⟩

theorem test_met_ResetClearsEveryRegister :
    ∃ s : State, s.status.busy = true ∧ s.turns = [.reset] :=
  ⟨{ issued 4#32 [] 0#32 with turns := [.reset] }, by decide⟩

theorem test_met_StatusInvariantsAreKept :
    (issued 0#32 [] 0#32).status.Lawful ∧ sees (step (issued 0#32 [] 0#32)) (fun t => t.status.done) = some true := by
  decide +kernel

/-- For every statement about a command in the state after issue. -/
theorem test_met_after_issue : (issued 0#32 [] 0#32).status = Status.running := by decide

/-- A8 and A9: the two clauses where they meet. -/
theorem test_met_Crc32LeavesTheCrcOfItsRegion :
    ∃ s t : State, s.status = Status.running ∧ s.src.toNat + s.slen.toNat = s.params.bufSize
      ∧ t.status = Status.running ∧ t.src.toNat + t.slen.toNat = t.params.bufSize + 1 :=
  ⟨{ issued 1#32 [] 0#32 with src := 4090#32, slen := 6#32 },
    { issued 1#32 [] 0#32 with src := 4090#32, slen := 7#32 }, by decide⟩

theorem test_met_Crc32ContContinuesFromCrcVal :
    ∃ s t : State, s.status = Status.running ∧ s.src.toNat + s.slen.toNat = s.params.bufSize
      ∧ t.status = Status.running ∧ t.src.toNat + t.slen.toNat = t.params.bufSize + 1 :=
  ⟨{ issued 0x101#32 [] 0#32 with src := 4096#32 }, { issued 0x101#32 [] 0#32 with src := 4097#32 }, by decide⟩

theorem test_met_CrcCheckReportsTheComparison :
    ∃ s t : State, s.status = Status.running ∧ s.src.toNat + s.slen.toNat + 4 = s.params.bufSize
      ∧ t.status = Status.running ∧ t.src.toNat + t.slen.toNat + 4 = t.params.bufSize + 1 :=
  ⟨{ issued 2#32 [] 0#32 with src := 4090#32, slen := 2#32 },
    { issued 2#32 [] 0#32 with src := 4090#32, slen := 3#32 }, by decide⟩

theorem test_met_CrcOfTwoPiecesIsTheCrcOfBoth :
    (issued 1#32 [0x31#8] 0#32).status = Status.running
      ∧ sees (exec .crc32 (issued 1#32 [0x31#8] 0#32)) (fun t => t.status.err) = some false := by
  decide +kernel

/-- The image statement's format, and every clause of the check order, one state each. -/
def fmt (w : Word) : State := { imageState with imgFmt := w }

theorem test_met_DefilterChecksInOrderThenStarts :
    (fmt 0x01000000#32).imgFmt.toNat / 2 ^ 24 = 1 ∧ (fmt 0x00000100#32).imgFmt.toNat / 2 ^ 8 % 2 ^ 8 = 1
      ∧ (fmt 0x00010000#32).imgFmt.toNat / 2 ^ 16 % 2 ^ 8 = 1 ∧ (fmt 1#32).imgFmt.toNat % 2 ^ 8 ∉ [0, 2, 3, 4, 6]
      ∧ ((imageState.imgFmt.toNat % 2 ^ 8, 1) : Nat × Nat) ∈ [(0, 1), (2, 3), (3, 1), (4, 2), (6, 4)]
      ∧ imageState.slen.toNat = 2 * (1 + 3 * 1) ∧ 2 * 3 * 1 = imageState.dcap.toNat
      ∧ imageState.src.toNat + imageState.slen.toNat ≤ imageState.dst.toNat := by
  decide +kernel

theorem test_met_DefilterChecksInOrderThenStarts_errors :
    ([{ imageState with imgH := 0#32 }, { imageState with slen := 9#32 }, { imageState with dcap := 5#32 },
      { imageState with dst := 4091#32 }, { imageState with dst := 7#32 }] : List State).map
        (fun s => sees (exec .defilter s) (fun t => t.status.word)) =
      [some 0x00004206#32, some 0x00001906#32, some 0x00003606#32, some 0x00003106#32, some 0x00003206#32] := by
  decide +kernel

/-- A column in the first pixel and one after it. -/
theorem test_met_RebuiltBytesUseTheirNeighbours :
    ∃ (bpp : Nat) (above raw : List Byte), 1 ≤ bpp ∧ above.length = raw.length ∧ 0 < raw.length ∧ ¬ bpp ≤ 0
      ∧ bpp < raw.length ∧ bpp ≤ bpp :=
  ⟨1, [1#8, 2#8], [3#8, 4#8], by decide⟩

theorem test_met_FilterBytesRebuildTheirRow :
    (defilt imageBytes 0 []).Defiltering { bpp := 1, rowBytes := 3, height := 2, row := 0, rows := [] }
      ∧ (defilt imageBytes 1 [[0x0A#8, 0x14#8, 0x1E#8]]).Defiltering
          { bpp := 1, rowBytes := 3, height := 2, row := 1, rows := [[0x0A#8, 0x14#8, 0x1E#8]] }
      ∧ ∀ r ∈ [[0x0A#8, 0x14#8, 0x1E#8]], r.length = 3 := by
  decide +kernel

theorem test_met_IllegalFilterBytesRaiseEFilter :
    (defilt (5#8 :: List.replicate 7 0#8) 0 []).Defiltering
      { bpp := 1, rowBytes := 3, height := 2, row := 0, rows := [] } := by
  decide +kernel

/-- P2's two rows: the first by Sub, the second by Up. -/
theorem test_met_DefilterReturnsTheFilteredImage :
    imageState.status = Status.running ∧ imageState.turns = [] ∧ imageState.engine = .idle ∧ imageState.cmd = 3#32
      ∧ imageState.imgW ≠ 0#32 ∧ imageState.imgH ≠ 0#32
      ∧ imageState.dst.toNat + 2 * 3 * 1 ≤ imageState.params.bufSize
      ∧ imageState.memRead 0 8 = filterImage 1 (List.replicate 3 0#8)
          [(.sub, [0x0A#8, 0x14#8, 0x1E#8]), (.up, [0x0F#8, 0x28#8, 0xFA#8])] := by
  decide +kernel

/-- Touching regions and an empty destination inside the source start (A15, A16); one byte shared, or one too many, does not. -/
theorem test_met_InflateChecksInOrderThenStarts :
    ([{ issued 4#32 (List.replicate 14 0#8) 16#32 with dst := 14#32 },
      { issued 4#32 (List.replicate 14 0#8) 0#32 with dst := 4#32 },
      { issued 4#32 (List.replicate 14 0#8) 16#32 with dst := 13#32 },
      { issued 4#32 (List.replicate 14 0#8) 16#32 with dst := 4081#32 }] : List State).map
        (fun s => sees (exec .inflate s) (fun t => t.status.word)) =
      [some 0x00000001#32, some 0x00000001#32, some 0x00003206#32, some 0x00003106#32] := by
  decide +kernel

theorem test_met_SourceBitsStandInStreamOrder :
    ((issued 4#32 [0x01#8, 0x80#8] 0#32).window 0)[0]? = some true
      ∧ ((issued 4#32 [0x01#8, 0x80#8] 0#32).window 15)[0]? = some true
      ∧ ((issued 4#32 [0x01#8, 0x80#8] 0#32).window 15)[1]? = none := by
  decide +kernel

theorem test_met_FieldsAreReadLeastSignificantBitFirst :
    (3 ≤ [true, false, false].length) ∧ ([true] : Bits).length < 2 ∧ 0 ≤ ([] : Bits).length := by
  decide

/-- R92's edges: `CINFO` 7 and 8, a bad `FCHECK`, a dictionary; and a header of 15 bits. -/
theorem test_met_ZlibHeaderIsJudged :
    (inflight Infl.start 4#32).Inflating Infl.start ∧ (List.replicate 15 true).length < 16
      ∧ fieldValue ((streamBits [0x79#8, 0x1A#8]).take 4) ≠ 8
      ∧ ((16 * 7 + 8) * 256 + (64 * 2 + 32 * 0 + 28)) % 31 = 0 ∧ ((16 * 7 + 8) * 256 + (64 * 2 + 32 * 0 + 29)) % 31 ≠ 0
      ∧ ((16 * 7 + 8) * 256 + (64 * 0 + 32 * 1 + 0)) % 31 = 0 := by
  decide +kernel

theorem test_met_BlockHeadersSelectTheirBody : (inflight Infl.start 4#32).Inflating Infl.start := by decide +kernel

/-- 16 bytes there and room for 3: two lengths for each clause. -/
theorem test_met_StoredBlocksCopyTheirBytes :
    (inflight oneByte 4#32).Inflating oneByte ∧ oneByte.Counted ∧ oneByte.count ≤ (inflight oneByte 4#32).dcap.toNat
      ∧ (8 * (inflight oneByte 4#32).slen.toNat - oneByte.ipos) / 8 = 16
      ∧ (inflight oneByte 4#32).dcap.toNat - oneByte.count = 3
      ∧ (8 * 16 - ({ oneByte with ipos := 104 } : Infl).ipos) / 8 = 3
      ∧ 0xFFFC#16 = 3#16 ^^^ 0xFFFF#16 ∧ 0xFEFC#16 ≠ 3#16 ^^^ 0xFFFF#16 := by
  decide +kernel

theorem test_met_TrailerVerifiesAndCompletes :
    (inflight oneByte 1#32).Inflating oneByte ∧ oneByte.Counted ∧ oneByte.count ≤ (inflight oneByte 1#32).dcap.toNat
      ∧ (0x00620062#32).toNat = adler32 oneByte.out ∧ (0x00620063#32).toNat ≠ adler32 oneByte.out := by
  decide +kernel

/-- R182's edges: `HLIT` 29 and 30, `HDIST` 29 and 30. -/
theorem test_met_DynamicCountsAreJudged :
    (inflight Infl.start 4#32).Inflating Infl.start ∧ (29#5).toNat + 257 = 286 ∧ 286 < (30#5).toNat + 257
      ∧ (29#5).toNat + 1 = 30 ∧ 30 < (30#5).toNat + 1 := by
  decide +kernel

/-- Four fields, two of length 1: complete; one of length 1: not. -/
theorem test_met_CodeLengthCodeMustBeComplete :
    (inflight Infl.start 4#32).Inflating Infl.start ∧ kraft (clLengths [1, 1, 0, 0]) = 2 ^ 15
      ∧ kraft (clLengths [1, 0, 0, 0]) ≠ 2 ^ 15 := by
  decide +kernel

/-- A dynamic header with `nlen = 257`, `ndist = 1` and this many lengths read. -/
def lengthsRead (lens : List Nat) : Infl :=
  { Infl.start with nlen := 257, ndist := 1, lens := lens, phase := .codeLengths }

/-- The last length to come; 257 lengths with a code for symbols 0 and 256. -/
theorem test_met_CodeLengthSymbolsAddTheirLengths :
    (inflight (lengthsRead (1 :: List.replicate 255 0 ++ [1])) 4#32).Inflating
        (lengthsRead (1 :: List.replicate 255 0 ++ [1]))
      ∧ (1 :: List.replicate 255 0 ++ [1] ++ List.replicate 1 0).length = 257 + 1
      ∧ 257 + 1 < (1 :: List.replicate 255 0 ++ [1] ++ List.replicate 3 0).length
      ∧ ([] ++ List.replicate 138 0 : List Nat).length < 257 + 1
      ∧ (1 :: List.replicate 255 0 ++ [1]).getLast? = some 1 := by
  decide +kernel

theorem test_met_CodeLengthSymbolsAddTheirLengths_sets :
    SetsAllowed (1 :: List.replicate 255 0 ++ [1] ++ List.replicate 1 0) 257
      ∧ ¬ SetsAllowed (1 :: List.replicate 256 0 ++ List.replicate 1 0) 257 := by
  refine ⟨⟨by decide +kernel, .inl (by decide +kernel), .inr ⟨by decide +kernel, .inr ⟨trivial, by decide +kernel⟩⟩⟩, ?_⟩
  rintro ⟨h, -⟩
  exact h (by decide +kernel)

theorem test_met_CodesAreCanonical :
    (∀ l ∈ [2, 1, 3, 3], l ≤ 15) ∧ 3 < [2, 1, 3, 3].length ∧ [2, 1, 3, 3].getD 3 0 ≠ 0
      ∧ (buildCodes [2, 1, 3, 3]).codes = [2, 0, 6, 7] := by
  decide

theorem test_met_CodesDecodeToTheirSymbols :
    (∀ l ∈ [2, 1, 3, 3], l ≤ 15) ∧ kraft [2, 1, 3, 3] ≤ 2 ^ 15 ∧ kraft [1, 2] ≤ 2 ^ 15 ∧ [1, 2].getD 1 0 ≠ 0 := by
  decide

theorem test_met_CompleteSetsDecodeEveryBitSequence :
    (∀ l ∈ [2, 1, 3, 3], l ≤ 15) ∧ kraft [2, 1, 3, 3] = 2 ^ 15 := by
  decide

/-- The bits the decoding clauses ask for: exactly enough, and one fewer; a `CMF` of 0x78. -/
theorem test_met_decoding_clauses :
    (0x78#8).toNat % 16 = 8 ∧ (List.replicate 14 true).length = 14 ∧ (List.replicate 31 true).length < 32
      ∧ 3 * 4 ≤ (List.replicate 12 true).length ∧ (List.replicate 11 true).length < 3 * 4
      ∧ decoded (decodeClSymbol 18 (List.replicate 7 true)) = some (.clZeros11To138 127#7)
      ∧ decoded (decode .storedBody (streamBits [0x03#8, 0x00#8, 0xFC#8, 0xFF#8])) = some (.storedLen 0x0003#16 0xFFFC#16)
      ∧ decoded (decode .zlibTrailer (streamBits [0x02#8, 0x4D#8, 0x01#8, 0x27#8])) = some (.zlibTrailer 0x024D0127#32) := by
  decide +kernel

theorem test_met_FixedCodesNameTheirSymbols :
    (inflight Infl.start 4#32).Inflating Infl.start ∧ 0x30 ≤ (0x30#8).toNat ∧ (0xBF#8).toNat ≤ 0xBF
      ∧ 0x190 ≤ (0x190#9).toNat ∧ (0x17#7).toNat ≤ 0x17 ∧ 0xC0 ≤ (0xC0#8).toNat ∧ (0xC7#8).toNat ≤ 0xC7 := by
  decide +kernel

/-- One byte of room and none. -/
theorem test_met_LiteralsAreEmittedAndBlocksEnd :
    (inflight oneByte 2#32).Inflating oneByte ∧ oneByte.count + 1 ≤ (inflight oneByte 2#32).dcap.toNat
      ∧ (inflight oneByte 1#32).Inflating oneByte ∧ (inflight oneByte 1#32).dcap.toNat < oneByte.count + 1 := by
  decide +kernel

theorem test_met_LengthSymbolsSetTheirLength :
    (inflight Infl.start 4#32).Inflating Infl.start ∧ lengthExtra.getD (257 - 257) 0 ≤ ([] : Bits).length
      ∧ lengthExtra.getD (284 - 257) 0 ≤ (List.replicate 5 true).length ∧ lengthExtra.getD (285 - 257) 0 = 0 := by
  decide +kernel

/-- Distance 1 of one byte with room for the three copies, with room for two, and distance 2. -/
theorem test_met_DistanceSymbolsCopyFromTheirDistance :
    (inflight oneByte 4#32).Inflating oneByte ∧ oneByte.Counted
      ∧ oneByte.count + oneByte.length = (inflight oneByte 4#32).dcap.toNat
      ∧ (inflight oneByte 3#32).dcap.toNat + 1 = oneByte.count + oneByte.length ∧ oneByte.count < 2
      ∧ distExtra.getD 29 0 ≤ (List.replicate 13 true).length := by
  decide +kernel

theorem test_met_SymbolsWithoutMeaningRaiseESymbol : (inflight Infl.start 4#32).Inflating Infl.start := by decide +kernel

theorem test_met_InflateReturnsTheStoredData :
    storedState.status = Status.running ∧ storedState.turns = [] ∧ storedState.engine = .idle ∧ storedState.cmd = 4#32
      ∧ storedState.slen.toNat = 3 + 11 ∧ 3 ≤ storedState.dcap.toNat
      ∧ storedState.src.toNat + storedState.slen.toNat ≤ storedState.dst.toNat
      ∧ storedState.memRead 0 14 = storedStream [0x61#8, 0x62#8, 0x63#8]
      ∧ storedStream [0x61#8, 0x62#8, 0x63#8] = [0x78#8, 0x01#8, 0x01#8, 0x03#8, 0x00#8, 0xFC#8, 0xFF#8, 0x61#8, 0x62#8,
          0x63#8, 0x02#8, 0x4D#8, 0x01#8, 0x27#8] := by
  decide +kernel

/-- `DCAP = 0` with `DST` strictly inside the source region, as in A16. -/
theorem test_met_InflateReturnsTheStoredData_empty :
    ∃ s : State, s.status = Status.running ∧ s.turns = [] ∧ s.engine = .idle ∧ s.cmd = 4#32 ∧ s.slen.toNat = 0 + 11
      ∧ s.dcap.toNat = 0 ∧ s.dst.toNat = s.src.toNat + 4 ∧ s.memRead s.src.toNat s.slen.toNat = storedStream [] :=
  ⟨{ issued 4#32 (storedStream []) 0#32 with dst := 4#32 }, by decide +kernel⟩

/-- Two INFLATEs in flight over the same bytes, with other destinations and other register values. -/
theorem test_met_InflateDependsOnItsSourceBytesAlone :
    ∃ s s' : State, s.Coherent ∧ s'.Coherent ∧ s.engine = .infl Infl.start ∧ s'.engine = .infl Infl.start
      ∧ s.status.busy = true ∧ s'.status.busy = true ∧ s.turns = [] ∧ s'.turns = [] ∧ s.slen = s'.slen ∧ s.dcap = s'.dcap
      ∧ s.memRead s.src.toNat s.slen.toNat = s'.memRead s'.src.toNat s'.slen.toNat ∧ s.dst ≠ s'.dst := by
  refine ⟨inflight Infl.start 4#32, { inflight Infl.start 4#32 with dst := 80#32, crcVal := 1#32 }, ?_, ?_, ?_⟩
  · exact ⟨by decide, by decide +kernel, by decide +kernel, by decide, by decide, show State.InflCoherent _ _ by decide +kernel⟩
  · exact ⟨by decide, by decide +kernel, by decide +kernel, by decide, by decide, show State.InflCoherent _ _ by decide +kernel⟩
  · decide +kernel

theorem test_met_ModexpIsThePowerReduced : 1 ≤ 1 ∧ modexp 5 0 1 = 0 := by decide

/-- R228's example, and R229's empty result. -/
def modexpState : State :=
  { issued 5#32 [0x41#8, 0x11#8, 0x0C#8, 0xA1#8] 2#32 with
    slen := 1#32, expAddr := 1#32, expLen := 1#32, modAddr := 2#32, modLen := 2#32 }

theorem test_met_ModexpWritesTheResult :
    (∀ q ∈ [(0, 1), (1, 1), (2, 2), (64, 2)], q.2 ≤ modexpState.params.maxOp ∧ q.1 + q.2 ≤ modexpState.params.bufSize)
      ∧ (∀ q ∈ [(0, 1), (1, 1), (2, 2)], q.1 + q.2 ≤ 64) ∧ be (modexpState.memRead 2 2) = 3233
      ∧ be (modexpState.memRead 0 1) ^ be (modexpState.memRead 1 1) % 3233 < 256 ^ modexpState.dcap.toNat := by
  decide +kernel

/-- One state for each error: one byte too many; past the end; one byte shared; modulus 0; one byte too few. -/
theorem test_met_ModexpErrorsComeInTheirOrder :
    ([{ modexpState with dcap := 257#32 }, { modexpState with dst := 4095#32 }, { modexpState with dst := 3#32 },
      { modexpState with modLen := 0#32 }, { modexpState with dcap := 1#32 }] : List State).map
        (fun s => sees (exec .modexp s) (fun t => t.status.word)) =
      [some 0x00003406#32, some 0x00003106#32, some 0x00003206#32, some 0x00003306#32, some 0x00003506#32] := by
  decide +kernel

theorem test_met_SerBeIsTheOnlySequenceOfItsValue :
    65535 < 256 ^ 2 ∧ serBe 2 65535 = [0xFF#8, 0xFF#8] ∧ 0 < 256 ^ 0 ∧ serBe 0 0 = [] := by
  decide

/-- The textbook key of R228: 61 * 53, 17, 2753. -/
theorem test_met_RsaDecryptionReturnsTheMessage :
    Nat.Prime 61 ∧ Nat.Prime 53 ∧ 61 ≠ 53 ∧ 17 * 2753 % ((61 - 1) * (53 - 1)) = 1 ∧ 65 < 61 * 53 := by
  norm_num

theorem test_met_DecodeOfEncodeIsTheInstruction :
    (Instr.dynClLens [0#3, 0#3, 0#3, 0#3]).wellFormed = true ∧ (Instr.dynClLens (List.replicate 19 7#3)).wellFormed = true
      ∧ (Instr.dist29 0x1FFF#13).wellFormed = true := by
  decide

theorem test_met_EncodeOfDecodeIsTheBits :
    decode .blockHeader [true, false, false, true] = .ok (.blockStored true, [true]) := by
  decide

theorem test_met_StepKeepsStatesCoherent :
    (inflight Infl.start 4#32).Coherent
      ∧ sees (step (inflight { Infl.start with phase := .block } 4#32)) (fun t => t.status.busy) = some true :=
  ⟨⟨by decide, by decide +kernel, by decide +kernel, by decide, by decide, show State.InflCoherent _ _ by decide +kernel⟩,
    by decide +kernel⟩

theorem test_met_CoherentStatesNeverStop :
    ∃ s : State, s.Coherent ∧ s.turns = [.host (.regRead 64 4)] ∧ s.NextAccessAllowed :=
  ⟨{ State.reset with turns := [.host (.regRead 64 4)] },
    ⟨by decide, by decide, by decide, by decide, by decide, trivial⟩, rfl, rfl⟩

theorem test_met_EveryCommandCompletes : imageState.Coherent ∧ imageState.turns = [] ∧ imageState.status.busy = true :=
  ⟨⟨by decide, by decide +kernel, by decide +kernel, by decide, by decide, trivial⟩, by decide⟩

theorem test_met_EveryCommandCompletes_move :
    State.Coherent { imageState with turns := [.engine] } ∧ imageState.status.busy = true :=
  ⟨⟨by decide, by decide +kernel, by decide +kernel, by decide, by decide, trivial⟩, by decide⟩

/-- The engine's move: a success, an error of stage 2 and `E_DCAP`, all of the image's DEFILTER. -/
theorem test_met_EngineWritesStayInTheDestination_move :
    State.Coherent { imageState with turns := [.engine] }
      ∧ sees (step { imageState with turns := [.engine] }) (fun t => t.status.err) = some false
      ∧ sees (step { imageState with imgH := 0#32, turns := [.engine] }) (fun t => t.status.errCode) = some Err.dim.code
      ∧ sees (step { imageState with dcap := 5#32, turns := [.engine] }) (fun t => t.status.errCode) = some Err.dcap.code :=
  ⟨⟨by decide, by decide +kernel, by decide +kernel, by decide, by decide, trivial⟩, by decide +kernel⟩

/-- A running row, a success and an error, all of the image's DEFILTER. -/
theorem test_met_EngineWritesStayInTheDestination :
    (defilt imageBytes 1 [[0#8, 0#8, 0#8]]).Coherent
      ∧ sees (step (defilt imageBytes 1 [[0#8, 0#8, 0#8]])) (fun t => (t.status.busy, t.status.err)) = some (false, false)
      ∧ sees (step { imageState with imgH := 0#32 }) (fun t => t.status.err) = some true
      ∧ sees (step imageState) (fun t => t.status.busy) = some true :=
  ⟨⟨by decide, by decide +kernel, by decide +kernel, by decide, by decide,
      show State.FiltCoherent _ _ from ⟨rfl, rfl, rfl, rfl, by decide +kernel⟩⟩, by decide +kernel⟩

theorem test_met_EngineWritesOnlyResultRegisters :
    imageState.Coherent ∧ imageState.status.busy = true ∧ imageState.turns = []
      ∧ decodeCommand imageState.cmd ≠ .inflate ∧ decodeCommand imageState.cmd ∉ [.crc32, .crc32Cont, .crcCheck] :=
  ⟨⟨by decide, by decide +kernel, by decide +kernel, by decide, by decide, trivial⟩, by decide⟩

end Sys2Proof.Tests
end

section
/-! PROOF. `be` and `ser_be` are inverse to each other (00_scope.md R8), both by induction on the last byte. -/

namespace Sys2Proof.Machine

/-- R8's equation for the empty sequence. -/
@[simp] theorem be_nil : be [] = 0 := rfl

/-- R8's equation for a sequence with a last byte. -/
@[simp] theorem be_append_singleton (s : List Byte) (b : Byte) : be (s ++ [b]) = be s * 256 + b.toNat := by
  simp [be]

/-- Serializing loses nothing of a value that fits in `n` bytes. -/
theorem be_serBe {n v : Nat} (hv : v < 256 ^ n) : be (serBe n v) = v := by
  induction n generalizing v with
  | zero => simp_all [serBe]
  | succ n ih =>
    have hhigh : v / 256 < 256 ^ n := Nat.div_lt_of_lt_mul (by rwa [pow_succ'] at hv)
    calc be (serBe (n + 1) v) = v / 256 * 256 + v % 256 := by simp [serBe, ih hhigh]
      _ = v := Nat.div_add_mod' v 256

/-- A byte sequence is determined by its length and its value. -/
theorem serBe_be (s : List Byte) : serBe s.length (be s) = s := by
  induction s using List.reverseRecOn with
  | nil => rfl
  | append_singleton s b ih =>
    have hhigh : (be s * 256 + b.toNat) / 256 = be s := by omega
    have hlow : BitVec.ofNat 8 (be s * 256 + b.toNat) = b := BitVec.eq_of_toNat_eq (by simp; omega)
    simp [serBe, hhigh, hlow, ih]

/-- Settles O51: `ser_be(n, v)` has that length and value by `serBe_length` and `be_serBe`, and is the only such
sequence by `serBe_be`. -/
theorem serBeIsTheOnlySequenceOfItsValue : Obligations.SerBeIsTheOnlySequenceOfItsValue := by
  intro n v bs hv
  constructor
  · rintro ⟨rfl, rfl⟩
    exact (serBe_be bs).symm
  · rintro rfl
    exact ⟨serBe_length n v, be_serBe hv⟩

end Sys2Proof.Machine
end

section
/-! PROOF. The layout of `STATUS` as a read returns it (10_state.md R23, 60_exceptions.md R241): the word is the sum of four
flags below 16 and of the error code times `2^8`, so its low byte is the flags' and its next byte the code's. -/

namespace Sys2Proof.Machine

/-- Bits 3:0 of `STATUS` as a number. -/
def Status.flags (t : Status) : Nat :=
  t.busy.toNat + 2 * t.done.toNat + 4 * t.err.toNat + 8 * t.matched.toNat

theorem Status.word_eq (t : Status) : t.word = BitVec.ofNat 32 (2 ^ 8 * t.errCode.toNat + t.flags) := by
  unfold Status.word Status.flags
  congr 1
  omega

theorem Status.flags_lt (t : Status) : t.flags < 2 ^ 4 := by
  have := t.busy.toNat_le
  have := t.done.toNat_le
  have := t.err.toNat_le
  have := t.matched.toNat_le
  unfold Status.flags
  omega

/-- The low byte of the word is the flags', the bits above it are the code's. -/
theorem Status.word_getLsbD (t : Status) (k : Nat) (hk : k < 32) :
    t.word.getLsbD k = if k < 8 then t.flags.testBit k else t.errCode.toNat.testBit (k - 8) := by
  have hflags : t.flags < 2 ^ 8 := Nat.lt_trans t.flags_lt (by decide)
  rw [Status.word_eq, BitVec.getLsbD_ofNat, Nat.testBit_two_pow_mul_add _ hflags]
  simp [hk]

theorem Status.word_flag (t : Status) (k : Nat) (hk : k < 8) : t.word.getLsbD k = t.flags.testBit k := by
  rw [Status.word_getLsbD t k (by omega), if_pos hk]

/-- The four flags stand in bits 0 to 3. -/
theorem Status.flags_testBit (t : Status) :
    t.flags.testBit 0 = t.busy ∧ t.flags.testBit 1 = t.done ∧ t.flags.testBit 2 = t.err ∧ t.flags.testBit 3 = t.matched := by
  unfold Status.flags
  generalize t.busy = busy, t.done = done, t.err = err, t.matched = matched
  decide +revert

/-- Bits 7:4 read 0 (R23). -/
theorem Status.word_reserved_low (t : Status) (k : Nat) (h4 : 4 ≤ k) (h8 : k < 8) : t.word.getLsbD k = false := by
  rw [Status.word_flag t k h8]
  exact Nat.testBit_lt_two_pow (Nat.lt_of_lt_of_le t.flags_lt (Nat.pow_le_pow_right (by decide) h4))

/-- The error code stands in bits 15:8 (R23). -/
theorem Status.word_errCode (t : Status) (k : Nat) (hk : k < 8) : t.word.getLsbD (8 + k) = t.errCode.getLsbD k := by
  rw [Status.word_getLsbD t _ (by omega), if_neg (by omega), Nat.add_sub_cancel_left]
  rfl

/-- Bits 31:16 read 0 (R23). -/
theorem Status.word_reserved_high (t : Status) (k : Nat) (hk : 16 ≤ k) : t.word.getLsbD k = false := by
  by_cases h : k < 32
  · rw [Status.word_getLsbD t k h, if_neg (by omega)]
    exact BitVec.getLsbD_of_ge t.errCode _ (by omega)
  · exact BitVec.getLsbD_of_ge _ _ (by omega)

/-- After an error `STATUS` is its code in bits 15:8 and 0x06 (R128). -/
theorem Status.failure_word (e : Err) : (Status.failure e).word.toNat = 256 * e.code.toNat + 6 := by
  have := e.code.isLt
  rw [Status.word_eq, BitVec.toNat_ofNat, Nat.mod_eq_of_lt] <;> simp [Status.failure, Status.flags]
  omega

/-- Settles O10: `word_getLsbD` places each field, and `failure_word` reduces the word after an error to R241's code. -/
theorem statusWordHasItsFields : Obligations.StatusWordHasItsFields := by
  intro t
  obtain ⟨hbusy, hdone, herr, hmatch⟩ := t.flags_testBit
  refine ⟨?_, ?_, ?_, ?_, t.word_reserved_low, t.word_errCode, t.word_reserved_high, ?_⟩
  · rw [t.word_flag 0 (by decide), hbusy]
  · rw [t.word_flag 1 (by decide), hdone]
  · rw [t.word_flag 2 (by decide), herr]
  · rw [t.word_flag 3 (by decide), hmatch]
  · intro e c hmem
    have hcode : e.code.toNat = c := by
      cases e <;> simp_all [Err.code]
    rw [Status.failure_word, hcode]

end Sys2Proof.Machine
end

section
/-! PROOF. What a move of the host can do (40_command_protocol.md R121 to R123), and the accesses the spec puts outside itself
(10_state.md R35, 20_memory.md R64). -/

namespace Sys2Proof.Machine

/-! ## Which accesses are refused -/

/-- No register is named by an access that is not an aligned 32-bit access at or above `REG_BASE` (R35). -/
theorem Params.regIndex?_eq_none_iff (p : Params) (addr width : Nat) :
    Params.regIndex? p addr width = none ↔ width ≠ 4 ∨ addr < p.regBase ∨ (addr - p.regBase) % 4 ≠ 0 := by
  unfold Params.regIndex?
  rw [ite_eq_right_iff]
  simp only [reduceCtorEq, imp_false]
  omega

/-- No byte of `BUF` is named by an access at or past `BUF_SIZE` (R64). -/
theorem Params.bufIndex?_eq_none (p : Params) (a : Nat) (h : p.bufSize ≤ a) : Params.bufIndex? p (p.bufBase + a) = none :=
  if_neg (by omega)

/-- An access inside `BUF` names an address in it (R64). -/
theorem Params.bufIndex?_lt {p : Params} {addr a : Nat} (h : Params.bufIndex? p addr = some a) : a < p.bufSize := by
  unfold Params.bufIndex? at h
  split at h
  · next hin =>
    injection h with h
    exact h ▸ hin.2
  · cases h

theorem hostMove_regWrite_refused (s : State) (addr width : Nat) (v : Word)
    (h : Params.regIndex? s.params addr width = none) : hostMove s (.regWrite addr width v) = .refused .registerAccess := by
  simp [hostMove, h]

theorem hostMove_regRead_refused (s : State) (addr width : Nat) (h : Params.regIndex? s.params addr width = none) :
    hostMove s (.regRead addr width) = .refused .registerAccess := by
  simp [hostMove, h]

theorem hostMove_bufWrite_refused (s : State) (addr : Nat) (b : Byte) (h : Params.bufIndex? s.params addr = none) :
    hostMove s (.bufWrite addr b) = .refused .bufferAccess := by
  simp [hostMove, h]

theorem hostMove_bufRead_refused (s : State) (addr : Nat) (h : Params.bufIndex? s.params addr = none) :
    hostMove s (.bufRead addr) = .refused .bufferAccess := by
  simp [hostMove, h]

/-- The host's turn is its move, the turn being over (R120). -/
theorem step_host (s : State) (m : HostMove) (ts : List Turn) (h : s.turns = .host m :: ts) :
    step s = hostMove { s with turns := ts } m := by
  simp [step, h]

/-- Settles O8: each access names no register by `regIndex?_eq_none_iff`, or no byte of `BUF` by `bufIndex?_eq_none`. -/
theorem accessesOutsideTheSpecAreRefused : Obligations.AccessesOutsideTheSpecAreRefused := by
  intro s ts
  refine ⟨fun addr width v hout hturn => ?_, fun addr width hout hturn => ?_, fun a b hout hturn => ?_,
    fun a hout hturn => ?_⟩ <;> rw [step_host s _ ts hturn]
  · exact hostMove_regWrite_refused _ _ _ _ ((Params.regIndex?_eq_none_iff _ _ _).2 hout)
  · exact hostMove_regRead_refused _ _ _ ((Params.regIndex?_eq_none_iff _ _ _).2 hout)
  · exact hostMove_bufWrite_refused _ _ _ (Params.bufIndex?_eq_none _ _ hout)
  · exact hostMove_bufRead_refused _ _ (Params.bufIndex?_eq_none _ _ hout)

/-! ## What an accepted access does -/

/-- The effects of one move of the host (R121 to R123). -/
inductive HostEffect (s : State) : State → Prop
  /-- a register write -/
  | regWritten (i : Nat) (v : Word) : HostEffect s (s.writeRegister i v)
  /-- a register read -/
  | regRead (i : Nat) : HostEffect s (s.observe (s.register i))
  /-- a byte of `BUF` written -/
  | bufWritten (a : Nat) (b : Byte) (ha : a < s.params.bufSize) : HostEffect s (s.writeBuffer a b)
  /-- a byte of `BUF` read -/
  | bufRead (a : Nat) (ha : a < s.params.bufSize) : HostEffect s (s.readBuffer a)

/-- Everything a move of the host can do. -/
theorem hostMove_effect {s t : State} {m : HostMove} (h : hostMove s m = .next t) : HostEffect s t := by
  cases m with
  | regWrite addr width v =>
    simp only [hostMove] at h
    split at h
    · injection h with h; exact h ▸ .regWritten _ v
    · cases h
  | regRead addr width =>
    simp only [hostMove] at h
    split at h
    · injection h with h; exact h ▸ .regRead _
    · cases h
  | bufWrite addr b =>
    simp only [hostMove] at h
    split at h
    · next ha => injection h with h; exact h ▸ .bufWritten _ b (Params.bufIndex?_lt ha)
    · cases h
  | bufRead addr =>
    simp only [hostMove] at h
    split at h
    · next ha => injection h with h; exact h ▸ .bufRead _ (Params.bufIndex?_lt ha)
    · cases h

/-- A register write while `BUSY = 0` is an issue or leaves `STATUS` as it is; it reaches neither `BUF` nor the working state
(R121). -/
theorem State.writeIdle_frame (s : State) (i : Nat) (v : Word) :
    (s.writeIdle i v).params = s.params ∧ (s.writeIdle i v).buf = s.buf ∧ (s.writeIdle i v).engine = s.engine
      ∧ ((s.writeIdle i v).status = s.status ∨ (s.writeIdle i v).status = Status.running) := by
  unfold State.writeIdle
  split
  case h_1 => exact ⟨rfl, rfl, rfl, .inr rfl⟩
  all_goals exact ⟨rfl, rfl, rfl, .inl rfl⟩

/-- A buffer read changes only what the host has seen and the free bytes drawn (R123). -/
theorem State.readBuffer_eq (s : State) (a : Nat) : ∃ n v, s.readBuffer a = { s with draws := n, reads := v } := by
  unfold State.readBuffer
  split
  · exact ⟨_, _, rfl⟩
  · exact ⟨_, _, rfl⟩

/-- A move of the host leaves `STATUS` as it is, or issues (R36, R121, R123). -/
theorem HostEffect.status_cases {s t : State} (h : HostEffect s t) : t.status = s.status ∨ t.status = Status.running := by
  cases h with
  | regWritten i v =>
    unfold State.writeRegister
    split
    · exact .inl rfl
    · exact (s.writeIdle_frame i v).2.2.2
  | regRead i => exact .inl rfl
  | bufWritten a b _ =>
    unfold State.writeBuffer
    split <;> exact .inl rfl
  | bufRead a _ =>
    obtain ⟨n, v, h⟩ := s.readBuffer_eq a
    exact .inl (h ▸ rfl)

end Sys2Proof.Machine
end

section
/-! PROOF. What every step keeps, reduced once to the host's moves, the engine's internal steps and reset
(40_command_protocol.md R120, R126), and the invariants of `STATUS` (10_state.md R23) as the first use of it. -/

namespace Sys2Proof.Machine

/-! ## Invariants of a step -/

/-- The engine's atomic move keeps what its internal steps keep, if the turns to come do not matter. -/
theorem engineMove_keeps (P : State → Prop) (hturns : ∀ s ts, P s → P { s with turns := ts })
    (hengine : ∀ s t, P s → s.status.busy = true → engineStep s = .next t → P t) {s t : State} (hs : P s)
    (h : engineMove s = .next t) : P t := by
  obtain ⟨u, hrun, rfl⟩ := engineMove_next h
  exact hturns u _ (runCommand_keeps P hengine _ _ u (hturns s [] hs) hrun)

/-- What the host's moves, the internal steps of a command in flight and reset keep, every step keeps, if the turns to come do
not matter. -/
theorem step_keeps (P : State → Prop) (hturns : ∀ s ts, P s → P { s with turns := ts })
    (hhost : ∀ s t, P s → HostEffect s t → P t)
    (hengine : ∀ s t, P s → s.status.busy = true → engineStep s = .next t → P t)
    (hreset : ∀ s, P s → P s.applyReset) {s t : State} (hs : P s) (h : step s = .next t) : P t := by
  unfold step at h
  split at h
  case h_1 =>
    unfold engineAlone at h
    split at h
    · next hbusy => exact hengine s t hs hbusy h
    · injection h with h
      exact h ▸ hs
  case h_2 m ts _ => exact hhost _ t (hturns s ts hs) (hostMove_effect h)
  case h_3 ts _ =>
    unfold engineTurn at h
    split at h
    · exact engineMove_keeps P hturns hengine (hturns s ts hs) h
    · injection h with h
      exact h ▸ hturns s ts hs
  case h_4 ts _ =>
    split at h
    · exact engineMove_keeps P hturns hengine hs h
    · injection h with h
      exact h ▸ hturns s ts hs
  case h_5 ts _ =>
    injection h with h
    exact h ▸ hreset _ (hturns s ts hs)

end Sys2Proof.Machine
end

section
/-! PROOF. The decoders answer instructions of their own format (30_encoding.md R86 to R110); in particular no element of a zlib
stream is a command word. -/

namespace Sys2Proof

open Sys2Proof.Machine (Bits Reject)

/-- What a decoder reads, if it reads anything, is an instruction of format `f`. -/
def Reads (f : Format) (r : Except Reject (Instr × Bits)) : Prop :=
  ∀ i rest, r = .ok (i, rest) → i.format = f

@[simp] theorem reads_ok (f : Format) (i : Instr) (rest : Bits) : Reads f (.ok (i, rest)) ↔ i.format = f := by
  simp [Reads]

@[simp] theorem reads_error (f : Format) (e : Reject) : Reads f (.error e) := by
  simp [Reads]

@[simp] theorem reads_withExtra (f : Format) (n : Nat) (mk : BitVec n → Instr) (bs : Bits) :
    Reads f (withExtra n mk bs) ↔
      (n ≤ bs.length → (mk (BitVec.ofNat n (Machine.fieldValue (bs.take n)))).format = f) := by
  unfold withExtra getField takeBits
  by_cases h : n ≤ bs.length <;> simp [h]

theorem decodeCommand_format (w : Word) : (decodeCommand w).format = .cmdWord := by
  unfold decodeCommand
  split
  · rfl
  · split <;> rfl

theorem decodeFilterByte_format (b : Byte) : (decodeFilterByte b).format = .filterByte := by
  unfold decodeFilterByte
  split <;> rfl

theorem decodeHeader_reads (bs : Bits) : Reads .zlibHeader (decodeHeader bs) := by
  unfold decodeHeader
  split
  · simp
  · split <;> simp [Instr.format]

theorem decodeBlockHeader_reads (bs : Bits) : Reads .blockHeader (decodeBlockHeader bs) := by
  unfold decodeBlockHeader
  split
  · next f t0 t1 rest => cases t0 <;> cases t1 <;> simp [Instr.format]
  · simp

theorem decodeStoredBody_reads (bs : Bits) : Reads .storedBody (decodeStoredBody bs) := by
  unfold decodeStoredBody
  split
  · simp
  · split <;> simp [Instr.format]

theorem decodeDynCounts_reads (bs : Bits) : Reads .dynCounts (decodeDynCounts bs) := by
  unfold decodeDynCounts
  split
  · simp
  · split
    · simp
    · split <;> simp [Instr.format]

/-- `n` fields are read as `n` values. -/
theorem getFields_length {k n : Nat} {bs rest : Bits} {vs : List (BitVec k)} (h : getFields k n bs = .ok (vs, rest)) :
    vs.length = n := by
  induction n generalizing bs vs with
  | zero => simp_all [getFields]
  | succ n ih =>
    unfold getFields at h
    split at h
    · cases h
    · split at h
      · cases h
      · next hvs =>
        cases h
        rw [List.length_cons, ih hvs]

theorem decodeDynClLens_reads (ncl : Nat) (bs : Bits) : Reads (.dynClLens ncl) (decodeDynClLens ncl bs) := by
  unfold decodeDynClLens
  split
  · simp
  · next h => simp [Instr.format, getFields_length h]

theorem decodeClSymbol_reads (s : Nat) (bs : Bits) : Reads .clSymbol (decodeClSymbol s bs) := by
  unfold decodeClSymbol
  split
  · simp [Instr.format]
  · split <;> simp [Instr.format]

theorem decodeFixedLitLen_reads (bs : Bits) : Reads .fixedLitLen (decodeFixedLitLen bs) := by
  unfold decodeFixedLitLen
  repeat' split
  all_goals simp [Instr.format]

theorem decodeFixedDist_reads (bs : Bits) : Reads .fixedDist (decodeFixedDist bs) := by
  unfold decodeFixedDist
  split <;> simp [Instr.format]

theorem decodeLitLenSymbol_reads (s : Nat) (bs : Bits) : Reads .litLenSymbol (decodeLitLenSymbol s bs) := by
  unfold decodeLitLenSymbol
  split
  · simp [Instr.format]
  · split <;> simp [Instr.format]

theorem decodeDistSymbol_reads (d : Nat) (bs : Bits) : Reads .distSymbol (decodeDistSymbol d bs) := by
  unfold decodeDistSymbol
  split <;> simp [Instr.format]

theorem decodeTrailer_reads (bs : Bits) : Reads .zlibTrailer (decodeTrailer bs) := by
  unfold decodeTrailer
  split <;> simp [Instr.format]

/-- The decoder of a format answers instructions of that format. -/
theorem decode_reads (f : Format) (bs : Bits) : Reads f (decode f bs) := by
  cases f with
  | cmdWord =>
    simp only [decode]
    split <;> simp [decodeCommand_format]
  | zlibHeader => exact decodeHeader_reads bs
  | blockHeader => exact decodeBlockHeader_reads bs
  | storedBody => exact decodeStoredBody_reads bs
  | dynCounts => exact decodeDynCounts_reads bs
  | dynClLens ncl => exact decodeDynClLens_reads ncl bs
  | clSymbol =>
    simp only [decode]
    split
    · simp
    · exact decodeClSymbol_reads _ _
  | fixedLitLen => exact decodeFixedLitLen_reads bs
  | fixedDist => exact decodeFixedDist_reads bs
  | litLenSymbol =>
    simp only [decode]
    split
    · simp
    · exact decodeLitLenSymbol_reads _ _
  | distSymbol =>
    simp only [decode]
    split
    · simp
    · exact decodeDistSymbol_reads _ _
  | zlibTrailer => exact decodeTrailer_reads bs
  | filterByte =>
    simp only [decode]
    split <;> simp [decodeFilterByte_format]

end Sys2Proof

namespace Sys2Proof.Machine

theorem decodeCodeLength_reads (t : CodeSet) (first : Bool) (bs : Bits) : Reads .clSymbol (decodeCodeLength t first bs) := by
  unfold decodeCodeLength
  split
  · simp
  · split
    · simp
    · exact decodeClSymbol_reads _ _

theorem decodeLitLen_reads (t : CodeSet) (bs : Bits) : Reads .litLenSymbol (decodeLitLen t bs) := by
  unfold decodeLitLen
  split
  · simp
  · exact decodeLitLenSymbol_reads _ _

theorem decodeDist_reads (t : CodeSet) (bs : Bits) : Reads .distSymbol (decodeDist t bs) := by
  unfold decodeDist
  split
  · simp
  · exact decodeDistSymbol_reads _ _

/-- The format of the element at the cursor (R133 (b), R175). -/
def Infl.nextFormat (w : Infl) : Format :=
  match w.phase with
  | .header => .zlibHeader
  | .block => .blockHeader
  | .storedBody => .storedBody
  | .dynCounts => .dynCounts
  | .dynClLens => .dynClLens w.ncl
  | .codeLengths => .clSymbol
  | .litLenCode => if w.fixed then .fixedLitLen else .litLenSymbol
  | .litLenSymbol => .litLenSymbol
  | .distCode => if w.fixed then .fixedDist else .distSymbol
  | .distSymbol => .distSymbol
  | .trailer => .zlibTrailer

/-- The element at the cursor has the format of its phase. -/
theorem Infl.decodeNext_reads (w : Infl) (bs : Bits) : Reads w.nextFormat (w.decodeNext bs) := by
  unfold Infl.nextFormat Infl.decodeNext
  cases w.phase with
  | codeLengths => exact decodeCodeLength_reads _ _ _
  | litLenCode =>
    cases w.fixed with
    | true => exact decode_reads .fixedLitLen bs
    | false => exact decodeLitLen_reads _ _
  | litLenSymbol => exact decodeLitLenSymbol_reads _ _
  | distCode =>
    cases w.fixed with
    | true => exact decode_reads .fixedDist bs
    | false => exact decodeDist_reads _ _
  | distSymbol => exact decodeDistSymbol_reads _ _
  | _ => exact decode_reads _ _

/-- An element of a stream is no command word. -/
theorem Infl.nextFormat_ne_cmdWord (w : Infl) : w.nextFormat ≠ .cmdWord := by
  unfold Infl.nextFormat
  cases w.phase <;> cases w.fixed <;> simp

end Sys2Proof.Machine
end

section
/-! PROOF. What a fetch does to the state (40_command_protocol.md R126, R133) and which working state an instruction can leave:
only DEFILTER and INFLATE start one. -/

namespace Sys2Proof.Machine

/-! ## Fetching -/

theorem streamBits_length (bs : List Byte) : (streamBits bs).length = 8 * bs.length := by
  induction bs with
  | nil => rfl
  | cons b bs ih =>
    rw [show streamBits (b :: bs) = fieldBits 8 b.toNat ++ streamBits bs from rfl, List.length_append, fieldBits_length, ih,
      List.length_cons]
    omega

/-- The bits looked at end with the source region (R171, R172). -/
theorem State.window_length_le (s : State) (ipos : Nat) : (s.window ipos).length ≤ 8 * s.slen.toNat - ipos := by
  unfold State.window
  rw [List.length_take, List.length_drop, streamBits_length, State.memRead_length]
  omega

/-- Moving the cursor over bits of the window keeps it inside the source region (R38, R172). -/
theorem Infl.advances_read (s : State) (w : Infl) (rest : Bits) :
    w.Advances s { w with ipos := w.ipos + ((s.window w.ipos).length - rest.length) } := by
  have hwindow := s.window_length_le w.ipos
  refine ⟨id, id, Nat.le_add_right _ _, fun h => ?_⟩
  show w.ipos + _ ≤ _
  omega

/-- What a fetch can answer to run: the command word, the element at the cursor, or a filter-type byte (R126, R133). -/
inductive FetchedRun (s : State) : Instr → State → Prop
  | command (he : s.engine = .idle) : FetchedRun s (decodeCommand s.cmd) s
  /-- the cursor moves past the element -/
  | element (i : Instr) (w w' : Infl) (he : s.engine = .infl w) (hv : s.inflRegionsValid = true) (ha : w.Advances s w')
      (hi : i.format ≠ .cmdWord) : FetchedRun s i (s.withInfl w')
  | row (i : Instr) (f : Filt) (he : s.engine = .filt f) (hi : i.format ≠ .cmdWord) : FetchedRun s i s

theorem fetch_run {s s' : State} {i : Instr} (h : fetch s = .run i s') : FetchedRun s i s' := by
  unfold fetch at h
  split at h
  case h_1 he => cases h; exact .command he
  case h_2 w he =>
    unfold fetchElement at h
    split at h
    · next hv =>
      split at h
      · next hdec =>
        cases h
        refine .element _ w _ he hv (w.advances_read s _) ?_
        rw [w.decodeNext_reads _ _ _ hdec]
        exact w.nextFormat_ne_cmdWord
      · cases h
    · cases h
  case h_3 f he =>
    unfold fetchRow at h
    split at h
    · cases h
      exact .row _ f he (by simp [decodeFilterByte_format])
    · cases h

/-- Bits that are no element complete the INFLATE in flight with an error of its data stage (R172, R174). -/
theorem fetch_complete {s t : State} (h : fetch s = .complete t) :
    ∃ w e, s.engine = .infl w ∧ s.inflRegionsValid = true ∧ t = s.raiseData s.dstRegion e := by
  unfold fetch at h
  split at h
  case h_1 => cases h
  case h_2 w he =>
    unfold fetchElement at h
    split at h
    · next hv =>
      split at h
      · cases h
      · cases h; exact ⟨w, _, he, hv, rfl⟩
    · cases h
  case h_3 =>
    unfold fetchRow at h
    split at h <;> cases h

theorem FetchedRun.status_eq {s s' : State} {i : Instr} (h : FetchedRun s i s') : s'.status = s.status := by
  cases h <;> rfl

theorem FetchedRun.cmd_eq {s s' : State} {i : Instr} (h : FetchedRun s i s') : s'.cmd = s.cmd := by
  cases h <;> rfl

/-- A fetched command word is the one in `CMD`. -/
theorem FetchedRun.command_eq {s s' : State} {i : Instr} (h : FetchedRun s i s') (hi : i.format = .cmdWord) :
    i = decodeCommand s.cmd := by
  cases h with
  | command _ => rfl
  | element _ _ _ _ _ _ hne => exact absurd hi hne
  | row _ _ _ hne => exact absurd hi hne

/-! ## The working state and its command -/

/-- The working state is one of command `c` (R42). -/
def Engine.Suits (c : Instr) : Engine → Prop
  | .idle => True
  | .infl _ => c = .inflate
  | .filt _ => c = .defilter

theorem inflating_suits {c : Instr} {s t : State} {k : Infl → Except Err Infl} (hs : s.engine.Suits c)
    (h : inflating s k = .next t) : t.engine.Suits c := by
  obtain ⟨w, he, -, rfl⟩ := inflating_next s t k h
  rw [he] at hs
  cases k w with
  | ok w' => exact hs
  | error e => trivial

theorem crcFrom_suits (c : Instr) {s t : State} {v : Word} (h : crcFrom v s = .next t) : t.engine.Suits c := by
  unfold crcFrom at h
  split at h <;> cases h <;> trivial

theorem execCrcCheck_suits (c : Instr) {s t : State} (h : execCrcCheck s = .next t) : t.engine.Suits c := by
  unfold execCrcCheck at h
  split at h <;> cases h <;> trivial

theorem execModexp_suits (c : Instr) {s t : State} (h : execModexp s = .next t) : t.engine.Suits c := by
  unfold execModexp modexpData at h
  simp only at h
  repeat' split at h
  all_goals cases h; trivial

theorem execDefilter_suits {s t : State} (h : execDefilter s = .next t) : t.engine.Suits .defilter := by
  unfold execDefilter at h
  repeat' split at h
  all_goals cases h; trivial

theorem execInflate_suits {s t : State} (h : execInflate s = .next t) : t.engine.Suits .inflate := by
  unfold execInflate at h
  repeat' split at h
  all_goals cases h; trivial

theorem execZlibTrailer_suits (c : Instr) {s t : State} {a : Word} (h : execZlibTrailer a s = .next t) : t.engine.Suits c := by
  unfold execZlibTrailer at h
  repeat' split at h
  all_goals cases h
  all_goals trivial

theorem rebuildRow_suits {c : Instr} {s t : State} {k : FilterKind} (hs : s.engine.Suits c) (h : rebuildRow k s = .next t) :
    t.engine.Suits c := by
  obtain ⟨f, he, -, -, -, h⟩ := defiltering_next _ _ _ h
  rw [he] at hs
  cases h
  unfold State.afterRow
  split
  · exact hs
  · trivial

theorem execFilterIllegal_suits (c : Instr) {s t : State} {b : Byte} (h : execFilterIllegal b s = .next t) :
    t.engine.Suits c := by
  obtain ⟨f, -, -, -, -, h⟩ := defiltering_next _ _ _ h
  cases h
  trivial

/-- Executing the command `c`, or an element or row of it, leaves a working state of `c` or none. -/
theorem exec_suits {c i : Instr} {s t : State} (hi : i.format = .cmdWord → i = c) (hs : s.engine.Suits c)
    (h : exec i s = .next t) : t.engine.Suits c := by
  cases i with
  | nop | illegalCmd _ => cases h; trivial
  | crc32 | crc32Cont => exact crcFrom_suits c h
  | crcCheck => exact execCrcCheck_suits c h
  | defilter => exact hi rfl ▸ execDefilter_suits h
  | inflate => exact hi rfl ▸ execInflate_suits h
  | modexp => exact execModexp_suits c h
  | zlibTrailer _ => exact execZlibTrailer_suits c h
  | filterNone | filterSub | filterUp | filterAverage | filterPaeth => exact rebuildRow_suits hs h
  | filterIllegal b => exact execFilterIllegal_suits c (b := b) h
  | _ => exact inflating_suits hs h

end Sys2Proof.Machine
end

section
/-! PROOF. Every step keeps the invariants of `STATUS` (10_state.md R23): while a command runs `STATUS` is as issue left it, and
a completion gives one of the words of 40_command_protocol.md R127, R128. -/

namespace Sys2Proof.Machine

/-- Lawful flags with `BUSY = 1` are those issue leaves (R124). -/
theorem Status.Lawful.eq_running {t : Status} (h : t.Lawful) (hbusy : t.busy = true) : t = Status.running := by
  obtain ⟨hdone, herr, hmatched, hcode⟩ := h.1 hbusy
  cases t
  simp_all [Status.running]

theorem Status.running_lawful : Status.running.Lawful := by decide

theorem Status.success_lawful (b : Bool) : (Status.success b).Lawful := by
  cases b <;> decide

theorem Status.failure_lawful (e : Err) : (Status.failure e).Lawful := by
  simp [Status.Lawful, Status.failure, Err.code_ne_zero]

/-- What an instruction makes of the flags of a running command (R127, R128). -/
theorem Effect.status_cases {s t : State} (h : Effect s t) (hs : s.status = Status.running) :
    t.status = Status.running ∨ (∃ b, t.status = Status.success b) ∨ ∃ e, t.status = Status.failure e := by
  cases h with
  | quick c st hst =>
    rcases hst with rfl | ⟨b, rfl⟩
    · exact .inr (.inl ⟨false, by simp [hs]⟩)
    · exact .inr (.inl ⟨b, by simp [hs]⟩)
  | failed e => exact .inr (.inr ⟨e, by simp [hs]⟩)
  | modexpFailed e _ _ => exact .inr (.inr ⟨e, by simp [hs]⟩)
  | elementFailed _ e _ _ => exact .inr (.inr ⟨e, by simp [hs]⟩)
  | filtFailed _ _ _ => exact .inr (.inr ⟨.filter, by simp [hs]⟩)
  | modexpDone _ _ _ => exact .inr (.inl ⟨false, by simp [hs]⟩)
  | inflDone _ _ _ => exact .inr (.inl ⟨false, by simp [State.inflateDone, hs]⟩)
  | filtDone _ _ _ _ _ _ => exact .inr (.inl ⟨false, by simp [hs]⟩)
  | filtStarted | inflStarted | element | rowDone => exact .inl hs

theorem Effect.status_lawful {s t : State} (h : Effect s t) (hs : s.status = Status.running) : t.status.Lawful := by
  rcases h.status_cases hs with ht | ⟨b, ht⟩ | ⟨e, ht⟩ <;> rw [ht]
  · exact Status.running_lawful
  · exact Status.success_lawful b
  · exact Status.failure_lawful e

theorem engineStep_status_lawful {s t : State} (hs : s.status.Lawful) (hbusy : s.status.busy = true)
    (h : engineStep s = .next t) : t.status.Lawful := by
  have hrun := hs.eq_running hbusy
  rcases engineStep_next h with ⟨i, s', hf, he⟩ | hf
  · exact he.status_lawful ((fetch_run hf).status_eq.trans hrun)
  · obtain ⟨w, e, he, hv, rfl⟩ := fetch_complete hf
    exact (Effect.elementFailed w e he hv).status_lawful hrun

/-- Settles O11 by `step_keeps`: a host move leaves `STATUS` or issues, an internal step leaves it or completes. -/
theorem statusInvariantsAreKept : Obligations.StatusInvariantsAreKept := by
  intro s t hs h
  refine step_keeps (fun s => s.status.Lawful) (fun _ _ hs => hs) (fun s t hs hm => ?_)
    (fun _ _ hs hbusy h => engineStep_status_lawful hs hbusy h) (fun s _ => ?_) hs h
  · show t.status.Lawful
    rcases hm.status_cases with ht | ht <;> rw [ht]
    · exact hs
    · exact Status.running_lawful
  · show Status.zero.Lawful
    decide

end Sys2Proof.Machine
end

section
/-! PROOF. Every step keeps a coherent state coherent (10_state.md R23, R38, R41, R42). The working state is the part that needs
the decoder: it stays one of the command in `CMD` because no element of a stream and no filter-type byte is a command word. -/

namespace Sys2Proof.Machine

/-! ## BUF -/

/-- `BUF` has its canonical form and lies inside `BUF_SIZE` (R41). -/
def State.BufCoherent (s : State) : Prop :=
  s.buf.wf ∧ s.BufInside

/-- A write inside `BUF` keeps it coherent. -/
theorem State.BufCoherent.of_write {s t : State} {a : Nat} {bs : List Byte} (h : s.BufCoherent)
    (hbuf : t.buf = s.buf.write a bs) (hparams : t.params = s.params) (hin : a + bs.length ≤ s.params.bufSize) :
    t.BufCoherent := by
  obtain ⟨hwf, hinside⟩ := h
  unfold State.BufCoherent State.BufInside
  rw [hbuf, hparams]
  refine ⟨Memory.write_wf _ _ _ hwf, fun c hc => ?_⟩
  rcases Memory.mem_write _ _ _ _ hc with hc | ⟨-, hlt⟩
  · exact hinside c hc
  · omega

/-- So does a data stage's error whose region lies in `BUF` (R76). -/
theorem State.BufCoherent.raiseData {s : State} (h : s.BufCoherent) {r : Region} (e : Err) (hr : s.holds r = true) :
    (s.raiseData r e).BufCoherent :=
  h.of_write rfl rfl (by rw [freeBytes_length]; exact (s.holds_iff r).1 hr)

theorem State.modexpRegionsValid_dst {s : State} (h : s.modexpRegionsValid = true) : s.holds s.dstRegion = true := by
  unfold State.modexpRegionsValid at h
  exact ((Bool.and_eq_true _ _).mp h).2

/-! ## The pieces of a coherent state -/

/-- A coherent state's working state is one of the command in `CMD`. -/
theorem State.EngineCoherent.suits {s : State} (h : s.EngineCoherent) : s.engine.Suits (decodeCommand s.cmd) := by
  unfold State.EngineCoherent at h
  cases he : s.engine with
  | idle => trivial
  | infl w | filt f =>
    rw [he] at h
    exact h.1

theorem State.EngineCoherent.infl {s : State} {w : Infl} (h : s.EngineCoherent) (he : s.engine = .infl w) :
    s.InflCoherent w := by
  unfold State.EngineCoherent at h
  rwa [he] at h

theorem State.EngineCoherent.filt {s : State} {f : Filt} (h : s.EngineCoherent) (he : s.engine = .filt f) :
    s.FiltCoherent f := by
  unfold State.EngineCoherent at h
  rwa [he] at h

theorem State.Coherent.engineCoherent {s : State} (h : s.Coherent) : s.EngineCoherent := by
  obtain ⟨-, -, -, -, -, hengine⟩ := h
  exact hengine

theorem State.EngineCoherent.of_idle {s : State} (he : s.engine = .idle) : s.EngineCoherent := by
  unfold State.EngineCoherent
  rw [he]
  trivial

/-- A state without working state is coherent if its registers and `BUF` are. -/
theorem State.Coherent.of_idle {s : State} (hparams : s.params.Ok) (hbuf : s.BufCoherent) (hstatus : s.status.Lawful)
    (he : s.engine = .idle) : s.Coherent :=
  ⟨hparams, hbuf.1, hbuf.2, hstatus, fun _ => he, .of_idle he⟩

/-! ## The working state of an INFLATE -/

theorem Infl.start_counted : Infl.start.Counted := by decide

/-- An operation on the working state that keeps its bookkeeping keeps it coherent. -/
theorem State.InflCoherent.advance {s : State} {w w' : Infl} (h : s.InflCoherent w) (ha : w.Advances s w') :
    s.InflCoherent w' := by
  obtain ⟨hcmd, hsrc, hdst, hover, hpos, hcounted, hcap⟩ := h
  exact ⟨hcmd, hsrc, hdst, hover, ha.inside hpos, ha.counted hcounted, ha.capacity hcap⟩

/-- The output of an INFLATE fits its destination region (R204). -/
theorem State.InflCoherent.out_fits {s : State} {w : Infl} (h : s.InflCoherent w) :
    s.dst.toNat + w.out.length ≤ s.params.bufSize := by
  obtain ⟨-, -, hdst, -, -, ⟨hcount, -⟩, hcap⟩ := h
  have hdst : s.dst.toNat + s.dcap.toNat ≤ s.params.bufSize := (s.holds_iff _).1 hdst
  have hout : w.out.length = w.count := by rw [Infl.out, List.length_reverse, hcount]
  omega

/-! ## The working state of a DEFILTER -/

/-- A DEFILTER whose checks pass has a row (R152). -/
theorem State.defilterParams_height {s : State} {bpp : Nat} (h : s.defilterParams = .ok bpp) : 0 < s.imgH.toNat := by
  unfold State.defilterParams at h
  repeat' split at h
  case h_2.isFalse.isFalse.isFalse hdim _ _ =>
    exact Nat.pos_of_ne_zero fun h0 => hdim (.inr (BitVec.eq_of_toNat_eq h0))
  all_goals cases h

/-- The rows after one more row of the image are rows of the image. -/
theorem State.FiltCoherent.addRow_rows {s : State} {f : Filt} (h : s.FiltCoherent f) (k : FilterKind) :
    ∀ r ∈ (f.addRow (reconRow k f.bpp f.above (s.rawRow f))).rows, r.length = f.rowBytes := by
  obtain ⟨-, -, -, -, -, -, -, -, -, hrows⟩ := h
  intro r hr
  rcases List.mem_cons.1 hr with rfl | hr
  · rw [reconRow_length, State.rawRow, State.memRead_length]
  · exact hrows r hr

/-- The pixel buffer of rows of one length. -/
theorem Filt.pixels_length {f : Filt} {n : Nat} (h : ∀ r ∈ f.rows, r.length = n) : f.pixels.length = f.rows.length * n := by
  have hlen : ∀ l ∈ f.rows.reverse.map List.length, l = n := by simpa using h
  rw [Filt.pixels, List.length_flatten, List.sum_eq_card_nsmul _ n hlen]
  simp

/-- The pixel buffer after the last row fits its destination region (R130, R158). -/
theorem State.FiltCoherent.pixels_length {s : State} {f : Filt} (h : s.FiltCoherent f) (k : FilterKind)
    (hlast : f.height ≤ f.row + 1) :
    (f.addRow (reconRow k f.bpp f.above (s.rawRow f))).pixels.length = f.height * f.rowBytes := by
  have hrows := h.addRow_rows k
  obtain ⟨-, -, -, -, -, -, -, hrow, hcount, -⟩ := h
  have hheight : f.height = f.row + 1 := by omega
  rw [Filt.pixels_length hrows, hheight, ← hcount]
  rfl

/-! ## An instruction keeps a coherent state coherent -/

theorem Effect.params_eq {s t : State} (h : Effect s t) : t.params = s.params := by
  cases h <;> rfl

/-- A command has no working state left when it has completed (R42). -/
theorem Effect.idle_of_done {s t : State} (h : Effect s t) (hs : s.status.busy = true) (ht : t.status.busy = false) :
    t.engine = .idle := by
  cases h with
  | filtStarted | inflStarted | element | rowDone => exact absurd (hs.symm.trans ht) (by decide)
  | _ => rfl

/-- An instruction writes inside `BUF`. -/
theorem Effect.bufCoherent {s t : State} (h : Effect s t) (hb : s.BufCoherent) (hc : s.EngineCoherent) : t.BufCoherent := by
  cases h with
  | quick | failed | filtStarted | inflStarted | element | rowDone => exact hb
  | modexpFailed e hv _ => exact hb.raiseData e (State.modexpRegionsValid_dst hv)
  | modexpDone r hv _ =>
    exact hb.of_write rfl rfl (by rw [serBe_length]; exact (s.holds_iff _).1 (State.modexpRegionsValid_dst hv))
  | elementFailed w e he _ =>
    obtain ⟨-, -, hdst, -⟩ := hc.infl he
    exact hb.raiseData e hdst
  | inflDone w he _ => exact hb.of_write rfl rfl (hc.infl he).out_fits
  | filtDone f k he _ hlast hd =>
    exact hb.of_write rfl rfl (by rw [(hc.filt he).pixels_length k hlast]; exact (s.holds_iff _).1 hd)
  | filtFailed f _ hd => exact hb.raiseData _ hd

/-- The working state an instruction leaves fits, if it is one of the command in `CMD`. -/
theorem Effect.engineCoherent {s t : State} (h : Effect s t) (hc : s.EngineCoherent)
    (hsuits : t.engine.Suits (decodeCommand s.cmd)) : t.EngineCoherent := by
  cases h with
  | filtStarted bpp hp hsrc hdst hover =>
    exact ⟨hsuits, hp, rfl, rfl, hsrc, hdst, hover, State.defilterParams_height hp, rfl, fun r hr => by cases hr⟩
  | inflStarted hsrc hdst hover =>
    exact ⟨hsuits, hsrc, hdst, hover, Nat.zero_le _, Infl.start_counted, Nat.zero_le _⟩
  | element w w' he _ ha => exact (hc.infl he).advance ha
  | rowDone f k he hr =>
    have hf := hc.filt he
    have hrows := hf.addRow_rows k
    obtain ⟨hcmd, hp, hbytes, hheight, hsrc, hdst, hover, -, hcount, -⟩ := hf
    exact ⟨hcmd, hp, hbytes, hheight, hsrc, hdst, hover, hr, congrArg (· + 1) hcount, hrows⟩
  | _ => exact .of_idle rfl

/-- A running command's instruction keeps a coherent state coherent, if it is the command in `CMD` or part of it. -/
theorem Effect.coherent {s t : State} (h : Effect s t) (hs : s.Coherent) (hbusy : s.status.busy = true)
    (hsuits : t.engine.Suits (decodeCommand s.cmd)) : t.Coherent := by
  obtain ⟨hparams, hwf, hinside, hstatus, -, hengine⟩ := hs
  obtain ⟨hwf', hinside'⟩ := h.bufCoherent ⟨hwf, hinside⟩ hengine
  exact ⟨h.params_eq ▸ hparams, hwf', hinside', h.status_lawful (hstatus.eq_running hbusy), h.idle_of_done hbusy,
    h.engineCoherent hengine hsuits⟩

/-! ## Steps -/

/-- A fetch leaves a coherent state. -/
theorem FetchedRun.coherent {s s' : State} {i : Instr} (h : FetchedRun s i s') (hs : s.Coherent)
    (hbusy : s.status.busy = true) : s'.Coherent := by
  cases h with
  | command _ => exact hs
  | element _ w w' he hv ha _ =>
    have hcmd : decodeCommand s.cmd = .inflate := (hs.engineCoherent.infl he).1
    exact (Effect.element w w' he hv ha).coherent hs hbusy hcmd
  | row _ _ _ _ => exact hs

/-- An internal step of a command in flight leaves a coherent state. -/
theorem engineStep_coherent {s t : State} (hs : s.Coherent) (hbusy : s.status.busy = true) (h : engineStep s = .next t) :
    t.Coherent := by
  unfold engineStep at h
  split at h
  · next i s' hf =>
    have hrun := fetch_run hf
    have hs' := hrun.coherent hs hbusy
    have hsuits : t.engine.Suits (decodeCommand s'.cmd) :=
      exec_suits (fun hi => hrun.cmd_eq ▸ hrun.command_eq hi) hs'.engineCoherent.suits h
    exact (exec_effect i s' t h).coherent hs' (hrun.status_eq ▸ hbusy) hsuits
  · next hf =>
    injection h with h
    subst h
    obtain ⟨w, e, he, hv, rfl⟩ := fetch_complete hf
    exact (Effect.elementFailed w e he hv).coherent hs hbusy trivial
  · cases h

/-- A move of the host leaves a coherent state: while a command runs it changes nothing of the block, and between commands
there is no working state. -/
theorem HostEffect.coherent {s t : State} (h : HostEffect s t) (hs : s.Coherent) : t.Coherent := by
  have hpieces := hs
  obtain ⟨hparams, hwf, hinside, hstatus, hidle, -⟩ := hpieces
  have hbuf : s.BufCoherent := ⟨hwf, hinside⟩
  cases h with
  | regWritten i v =>
    unfold State.writeRegister
    split
    · exact hs
    · next hbusy =>
      obtain ⟨hp, hb, he, hst⟩ := s.writeIdle_frame i v
      refine .of_idle (hp ▸ hparams) ?_ ?_ (he.trans (hidle (by simpa using hbusy)))
      · unfold State.BufCoherent State.BufInside
        rw [hp, hb]
        exact hbuf
      · rcases hst with hst | hst <;> rw [hst]
        · exact hstatus
        · exact Status.running_lawful
  | regRead i => exact hs
  | bufWritten a b ha =>
    unfold State.writeBuffer
    split
    · exact hs
    · next hbusy => exact .of_idle hparams (hbuf.of_write rfl rfl ha) hstatus (hidle (by simpa using hbusy))
  | bufRead a _ =>
    obtain ⟨n, v, h⟩ := s.readBuffer_eq a
    exact h ▸ hs

theorem State.applyReset_coherent {s : State} (hs : s.Coherent) : s.applyReset.Coherent := by
  obtain ⟨hparams, -⟩ := hs
  exact .of_idle hparams ⟨Memory.wf_nil, fun c hc => by cases hc⟩ (by decide : Status.zero.Lawful) rfl

/-- Settles O56 by `step_keeps` from `HostEffect.coherent`, `engineStep_coherent` and `State.applyReset_coherent`. -/
theorem stepKeepsStatesCoherent : Obligations.StepKeepsStatesCoherent := by
  intro s t hs h
  exact step_keeps State.Coherent (fun _ _ hs => hs) (fun _ _ hs hm => hm.coherent hs)
    (fun _ _ hs hbusy h => engineStep_coherent hs hbusy h) (fun _ hs => State.applyReset_coherent hs) hs h

end Sys2Proof.Machine
end

section
/-! PROOF. What one internal step of a command in flight can do, with the command and the error named (40_command_protocol.md
R126 to R130): `Effect` (Laws/Effect.lean) says what any instruction can do, `CommandEffect` what the command in `CMD` can.
The confinement of the engine's writes (20_memory.md R76) and its result registers (R60) are read off its cases. -/

namespace Sys2Proof.Machine

/-! ## The errors of the data stage -/

/-- The errors a command can raise in its data stage (R129 stage 5). -/
def dataErrors : Instr → List Err
  | .inflate => [.trunc, .zhdr, .zdict, .btype, .stored, .codelen, .symbol, .dist, .adler, .dcap]
  | .defilter => [.filter]
  | .modexp => [.modzero, .range]
  | _ => []

/-- The errors that only the stages 1 to 4 raise (R129). DEFILTER raises `E_DCAP` there too, INFLATE in its data stage. -/
def checkErrors : List Err := [.cmd, .interlace, .method, .colortype, .dim, .len, .oplen, .addr, .overlap]

/-- The error code tells a data stage from the stages before it (R129, R241). -/
theorem dataErrors_code_ne (c : Instr) : ∀ e ∈ dataErrors c, ∀ e' ∈ checkErrors, e.code ≠ e'.code := by
  unfold dataErrors
  split <;> decide

theorem copyBack_error {cap dist : Nat} (n : Nat) :
    ∀ {w : Infl} {e : Err}, copyBack cap dist n w = .error e → e ∈ dataErrors .inflate := by
  induction n with
  | zero => intro w e h; cases h
  | succ n ih =>
    intro w e h
    unfold copyBack at h
    split at h
    · exact ih h
    · next e' he =>
      cases h
      obtain ⟨rfl, -⟩ := Infl.emit_error _ _ _ _ he
      decide

theorem copyStored_error {s : State} (n : Nat) :
    ∀ {w : Infl} {e : Err}, copyStored s n w = .error e → e ∈ dataErrors .inflate := by
  induction n with
  | zero => intro w e h; cases h
  | succ n ih =>
    intro w e h
    unfold copyStored at h
    split at h
    · cases h; decide
    · split at h
      · exact ih h
      · next e' he =>
        cases h
        obtain ⟨rfl, -⟩ := Infl.emit_error _ _ _ _ he
        decide

theorem Infl.finishLengths_error {w : Infl} {e : Err} (h : w.finishLengths = .error e) : e ∈ dataErrors .inflate := by
  unfold Infl.finishLengths at h
  repeat' split at h
  all_goals cases h
  all_goals decide

theorem Infl.addLengths_error {w : Infl} {n v : Nat} {e : Err} (h : w.addLengths n v = .error e) :
    e ∈ dataErrors .inflate := by
  unfold Infl.addLengths at h
  simp only at h
  split at h
  · cases h; decide
  split at h
  · exact Infl.finishLengths_error h
  · cases h

/-- Bits that are no element are an error of the data stage (R172, R174, R176, R184). -/
theorem Reject.err_mem (r : Reject) : r.err ∈ dataErrors .inflate := by
  cases r <;> decide

/-! ## The destination region of a command -/

theorem State.destination?_inflate {s : State} (h : decodeCommand s.cmd = .inflate) : s.destination? = some s.dstRegion := by
  simp [State.destination?, h]

theorem State.destination?_modexp {s : State} (h : decodeCommand s.cmd = .modexp) : s.destination? = some s.dstRegion := by
  simp [State.destination?, h]

/-- Every destination region starts at `DST` (R130). -/
theorem State.destination?_addr {s : State} {r : Region} (h : s.destination? = some r) : r.addr = s.dst.toNat := by
  unfold State.destination? at h
  repeat' split at h
  all_goals cases h
  all_goals rfl

/-- What the checks of a DEFILTER let through: the colour type has bytes per pixel, and the pixels fit `DCAP` (R152, R153). -/
theorem State.defilterParams_ok {s : State} {bpp : Nat} (h : s.defilterParams = .ok bpp) :
    bytesPerPixel s.colorType = some bpp ∧ pixelLength s.imgW.toNat s.imgH.toNat bpp ≤ s.dcap.toNat := by
  unfold State.defilterParams at h
  repeat' split at h
  all_goals cases h
  next hbpp _ hcap => exact ⟨hbpp, Nat.le_of_not_lt hcap⟩

theorem State.FiltCoherent.filtDest_eq {s : State} {f : Filt} (h : s.FiltCoherent f) :
    s.filtDest f = s.pixelRegion f.bpp := by
  obtain ⟨-, -, hbytes, hheight, -⟩ := h
  simp [State.filtDest, State.pixelRegion, pixelLength, hbytes, hheight, Nat.mul_assoc]

/-- The destination region of a DEFILTER in flight is the one its command names (R130). -/
theorem State.FiltCoherent.destination? {s : State} {f : Filt} (h : s.FiltCoherent f) :
    s.destination? = some (s.filtDest f) := by
  rw [h.filtDest_eq]
  obtain ⟨hcmd, hparams, -⟩ := h
  simp [State.destination?, hcmd, (State.defilterParams_ok hparams).1]

/-- The pixel buffer of a DEFILTER in flight fits `DCAP` (R153). -/
theorem State.FiltCoherent.filtDest_le {s : State} {f : Filt} (h : s.FiltCoherent f) :
    f.height * f.rowBytes ≤ s.dcap.toNat := by
  show (s.filtDest f).len ≤ _
  rw [h.filtDest_eq]
  obtain ⟨-, hparams, -⟩ := h
  exact (State.defilterParams_ok hparams).2

/-! ## What an internal step can do -/

/-- The effects of one internal step of the command in `CMD` (R126 to R132). -/
inductive CommandEffect (s : State) : State → Prop
  /-- the command goes on (R132) -/
  | working (e : Engine) : CommandEffect s { s with engine := e }
  /-- NOP or a CRC command succeeds: `v` is `CRC_VAL`, `m` is `MATCH` (R131, R142, R144) -/
  | computed (v : Word) (m : Bool) (hv : decodeCommand s.cmd ∉ [.crc32, .crc32Cont, .crcCheck] → v = s.crcVal)
      (hm : decodeCommand s.cmd ≠ .crcCheck → m = s.status.matched) :
      CommandEffect s ({ s with crcVal := v, status := s.status.setMatch m }.succeed 0)
  /-- an error of the stages 1 to 4 (R129) -/
  | checkFailed (e : Err) : CommandEffect s (s.raise e)
  /-- an error of the data stage, which only MODEXP reaches in its first internal step (R76) -/
  | dataFailed (r : Region) (e : Err) (hr : s.destination? = some r) (he : e ∈ dataErrors (decodeCommand s.cmd))
      (hfirst : s.engine = .idle → decodeCommand s.cmd = .modexp) : CommandEffect s (s.raiseData r e)
  /-- success with `out` written to the destination region `r` (R127, R76) -/
  | written (r : Region) (out : List Byte) (icons adler : Word) (hr : s.destination? = some r) (hfit : out.length ≤ r.len)
      (hcap : out.length ≤ s.dcap.toNat)
      (hkeep : decodeCommand s.cmd ≠ .inflate → icons = s.icons ∧ adler = s.adler) :
      CommandEffect s ({ s.memWrite s.dst.toNat out with icons := icons, adler := adler }.succeed out.length)

/-- An element of a stream whose errors are those of INFLATE's data stage. -/
theorem inflating_commandEffect {s t : State} {k : Infl → Except Err Infl} (hs : s.EngineCoherent)
    (h : inflating s k = .next t) (hk : ∀ w e, k w = .error e → e ∈ dataErrors .inflate) : CommandEffect s t := by
  obtain ⟨w, he, -, rfl⟩ := inflating_next s t k h
  obtain ⟨hcmd, -⟩ := hs.infl he
  cases hw : k w with
  | ok w' => exact .working (.infl w')
  | error e => exact .dataFailed _ e (State.destination?_inflate hcmd) (hcmd ▸ hk w e hw) fun hidle => by simp [he] at hidle

theorem distanceSymbol_commandEffect {s t : State} {n : Nat} (hs : s.EngineCoherent) (h : distanceSymbol n s = .next t) :
    CommandEffect s t :=
  inflating_commandEffect hs h fun w e hw => by
    split at hw
    · cases hw; decide
    split at hw
    · cases hw
    · next hcopy => cases hw; exact copyBack_error _ hcopy

theorem execZlibTrailer_commandEffect {s t : State} {a : Word} (hs : s.EngineCoherent)
    (h : execZlibTrailer a s = .next t) : CommandEffect s t := by
  unfold execZlibTrailer at h
  repeat' split at h
  all_goals cases h
  · next w he _ _ =>
    obtain ⟨hcmd, -, -, -, -, ⟨hcount, -⟩, hcap⟩ := hs.infl he
    have hlen : w.count = w.out.length := by rw [Infl.out, List.length_reverse, hcount]
    unfold State.inflateDone
    rw [hlen] at hcap ⊢
    exact .written _ w.out _ _ (State.destination?_inflate hcmd) hcap hcap fun hne => absurd hcmd hne
  · next w he _ _ =>
    obtain ⟨hcmd, -⟩ := hs.infl he
    exact .dataFailed _ _ (State.destination?_inflate hcmd) (hcmd ▸ by decide) fun hidle => by simp [he] at hidle

theorem rebuildRow_commandEffect {s t : State} {k : FilterKind} (hs : s.EngineCoherent) (h : rebuildRow k s = .next t) :
    CommandEffect s t := by
  obtain ⟨f, he, -, -, -, h⟩ := defiltering_next _ _ _ h
  cases h
  have hf := hs.filt he
  unfold State.afterRow
  split
  · exact .working _
  · next hlast =>
    have hlen := hf.pixels_length k (Nat.le_of_not_lt hlast)
    have hcap := hf.filtDest_le
    show CommandEffect s (State.succeed _ (f.height * f.rowBytes))
    rw [← hlen] at hcap ⊢
    exact .written _ _ s.icons s.adler hf.destination? hlen.le hcap fun _ => ⟨rfl, rfl⟩

theorem execFilterIllegal_commandEffect {s t : State} {b : Byte} (hs : s.EngineCoherent)
    (h : execFilterIllegal b s = .next t) : CommandEffect s t := by
  obtain ⟨f, he, -, -, -, h⟩ := defiltering_next _ _ _ h
  cases h
  have hf := hs.filt he
  obtain ⟨hcmd, -⟩ := hs.filt he
  exact .dataFailed _ _ hf.destination? (hcmd ▸ by decide) fun hidle => by simp [he] at hidle

theorem crcFrom_commandEffect {s t : State} {c : Word} (hcmd : decodeCommand s.cmd ∈ [.crc32, .crc32Cont])
    (h : crcFrom c s = .next t) : CommandEffect s t := by
  unfold crcFrom at h
  split at h <;> cases h
  · exact .computed _ s.status.matched (fun hne => absurd (List.mem_append_left [Instr.crcCheck] hcmd) hne) fun _ => rfl
  · exact .checkFailed _

theorem execCrcCheck_commandEffect {s t : State} (hcmd : decodeCommand s.cmd = .crcCheck) (h : execCrcCheck s = .next t) :
    CommandEffect s t := by
  unfold execCrcCheck at h
  split at h <;> cases h
  · exact .computed _ _ (fun hne => absurd (by simp [hcmd]) hne) fun hne => absurd hcmd hne
  · exact .checkFailed _

theorem execModexp_commandEffect {s t : State} (hcmd : decodeCommand s.cmd = .modexp) (h : execModexp s = .next t) :
    CommandEffect s t := by
  have hdst := State.destination?_modexp hcmd
  have hfailed (e : Err) (he : e ∈ dataErrors .modexp) : CommandEffect s (s.raiseData s.dstRegion e) :=
    .dataFailed _ e hdst (hcmd ▸ he) fun _ => hcmd
  unfold execModexp at h
  split at h
  · cases h; exact .checkFailed _
  split at h
  · cases h; exact .checkFailed _
  split at h
  · cases h; exact .checkFailed _
  unfold modexpData at h
  split at h
  · cases h; exact hfailed _ (by decide)
  simp only at h
  split at h <;> cases h
  · exact hfailed _ (by decide)
  · have hlen := serBe_length s.dcap.toNat (modexp s.base s.exponent s.modulus)
    have hdone := CommandEffect.written _ _ s.icons s.adler hdst hlen.le hlen.le fun _ => ⟨rfl, rfl⟩
    rwa [hlen] at hdone

theorem execDefilter_commandEffect {s t : State} (h : execDefilter s = .next t) : CommandEffect s t := by
  unfold execDefilter at h
  repeat' split at h
  all_goals cases h
  case h_2.isFalse.isFalse => exact .working _
  all_goals exact .checkFailed _

theorem execInflate_commandEffect {s t : State} (h : execInflate s = .next t) : CommandEffect s t := by
  unfold execInflate at h
  repeat' split at h
  all_goals cases h
  case isFalse.isFalse => exact .working _
  all_goals exact .checkFailed _

/-- Executing the command in `CMD`, or an element or row of it. -/
theorem exec_commandEffect {i : Instr} {s t : State} (hi : i.format = .cmdWord → i = decodeCommand s.cmd)
    (hs : s.EngineCoherent) (h : exec i s = .next t) : CommandEffect s t := by
  cases i with
  | nop => cases h; exact .computed s.crcVal s.status.matched (fun _ => rfl) fun _ => rfl
  | crc32 | crc32Cont => exact crcFrom_commandEffect (by simp [← hi rfl]) h
  | crcCheck => exact execCrcCheck_commandEffect (hi rfl).symm h
  | defilter => exact execDefilter_commandEffect h
  | inflate => exact execInflate_commandEffect h
  | modexp => exact execModexp_commandEffect (hi rfl).symm h
  | illegalCmd w => cases h; exact .checkFailed _
  | zlibHeader _ _ _ _ =>
    refine inflating_commandEffect hs h fun _ _ hw => ?_
    repeat' split at hw
    all_goals cases hw
    all_goals decide
  | blockReserved _ | ll286To287 _ | dist30To31 _ =>
    exact inflating_commandEffect hs h fun _ _ hw => by cases hw; decide
  | storedLen _ _ =>
    refine inflating_commandEffect hs h fun _ _ hw => ?_
    split at hw
    · cases hw; decide
    split at hw
    · cases hw
    · next hcopy => cases hw; exact copyStored_error _ hcopy
  | dynCounts _ _ _ | dynClLens _ =>
    refine inflating_commandEffect hs h fun _ _ hw => ?_
    split at hw
    · cases hw; decide
    · cases hw
  | clLen0To15 _ | clZeros3To10 _ | clZeros11To138 _ =>
    exact inflating_commandEffect hs h fun _ _ hw => Infl.addLengths_error hw
  | clRepeatPrev _ =>
    refine inflating_commandEffect hs h fun _ _ hw => ?_
    split at hw
    · cases hw; decide
    · exact Infl.addLengths_error hw
  | literal _ =>
    refine inflating_commandEffect hs h fun _ _ hw => ?_
    split at hw
    · cases hw
    · next hemit =>
      cases hw
      obtain ⟨rfl, -⟩ := Infl.emit_error _ _ _ _ hemit
      decide
  | dist0 | dist1 | dist2 | dist3 | dist4 _ | dist5 _ | dist6 _ | dist7 _ | dist8 _ | dist9 _ | dist10 _ | dist11 _ | dist12 _
  | dist13 _ | dist14 _ | dist15 _ | dist16 _ | dist17 _ | dist18 _ | dist19 _ | dist20 _ | dist21 _ | dist22 _ | dist23 _
  | dist24 _ | dist25 _ | dist26 _ | dist27 _ | dist28 _ | dist29 _ => exact distanceSymbol_commandEffect hs h
  | zlibTrailer _ => exact execZlibTrailer_commandEffect hs h
  | filterNone | filterSub | filterUp | filterAverage | filterPaeth => exact rebuildRow_commandEffect hs h
  | filterIllegal b => exact execFilterIllegal_commandEffect (b := b) hs h
  | _ => exact inflating_commandEffect hs h fun _ _ hw => by cases hw

/-- An element runs on a state whose cursor has moved; its effect is one on the state before the fetch, which no command word
was fetched in. -/
theorem CommandEffect.of_withInfl {s t : State} {w : Infl} (h : CommandEffect (s.withInfl w) t) (he : s.engine ≠ .idle) :
    CommandEffect s t := by
  cases h with
  | working e => exact .working e
  | computed v m hv hm => exact .computed v m hv hm
  | checkFailed e => exact .checkFailed e
  | dataFailed r e hr hmem _ => exact .dataFailed r e hr hmem fun hidle => absurd hidle he
  | written r out icons adler hr hfit hcap hkeep => exact .written r out icons adler hr hfit hcap hkeep

/-- A fetch that finds no element is an error of the data stage (R172, R174). -/
theorem fetch_complete_commandEffect {s t : State} (hs : s.EngineCoherent) (h : fetch s = .complete t) :
    CommandEffect s t := by
  unfold fetch fetchElement fetchRow at h
  repeat' split at h
  all_goals cases h
  next he _ _ r _ =>
  obtain ⟨hcmd, -⟩ := hs.infl he
  exact .dataFailed _ _ (State.destination?_inflate hcmd) (hcmd ▸ r.err_mem) fun hidle => by simp [he] at hidle

/-- Everything an internal step of a coherent state can do. -/
theorem engineStep_commandEffect {s t : State} (hs : s.Coherent) (hbusy : s.status.busy = true)
    (h : engineStep s = .next t) : CommandEffect s t := by
  unfold engineStep at h
  split at h
  · next i s' hf =>
    have hrun := fetch_run hf
    have heffect : CommandEffect s' t :=
      exec_commandEffect (fun hi => hrun.cmd_eq ▸ hrun.command_eq hi) (hrun.coherent hs hbusy).engineCoherent h
    cases hrun with
    | command _ => exact heffect
    | row _ _ _ _ => exact heffect
    | element _ w w' he _ _ _ => exact heffect.of_withInfl (by simp [he])
  · next hf =>
    cases h
    exact fetch_complete_commandEffect hs.engineCoherent hf
  · cases h

/-! ## What the engine's move can do -/

/-- As long as the command runs, only its working state changes. -/
theorem CommandEffect.eq_of_busy {s t : State} (h : CommandEffect s t) (ht : t.status.busy = true) :
    ∃ e, t = { s with engine := e } := by
  cases h with
  | working e => exact ⟨e, rfl⟩
  | _ => cases ht

/-- The internal steps up to the completion do what the last of them does, on a state that differs from the first in its working
state only. -/
theorem runCommand_commandEffect {n : Nat} {s t : State} (hs : s.Coherent) (h : runCommand n s = .next t) :
    ∃ e, CommandEffect { s with engine := e } t := by
  refine (runCommand_keeps (fun u => u.Coherent ∧ ∃ e, CommandEffect { s with engine := e } u) ?_ n s t
    ⟨hs, s.engine, .working s.engine⟩ h).2
  rintro u v ⟨hu, e, heffect⟩ hbusy hstep
  refine ⟨engineStep_coherent hu hbusy hstep, ?_⟩
  have hlast := engineStep_commandEffect hu hbusy hstep
  obtain ⟨e', rfl⟩ := heffect.eq_of_busy hbusy
  exact ⟨e', hlast⟩

/-- The turns to come are no concern of the engine. -/
theorem CommandEffect.withTurns {s t : State} (h : CommandEffect s t) (ts : List Turn) :
    CommandEffect { s with turns := ts } { t with turns := ts } := by
  cases h with
  | working e => exact .working e
  | computed v m hv hm => exact .computed v m hv hm
  | checkFailed e => exact .checkFailed e
  | dataFailed r e hr hmem hfirst => exact .dataFailed r e hr hmem hfirst
  | written r out icons adler hr hfit hcap hkeep => exact .written r out icons adler hr hfit hcap hkeep

/-- A command in flight finds `STATUS` as issue left it (R124). -/
theorem State.Coherent.status_eq_running {s : State} (hs : s.Coherent) (hbusy : s.status.busy = true) :
    s.status = Status.running := by
  obtain ⟨-, -, -, hstatus, -⟩ := hs
  exact hstatus.eq_running hbusy

/-- With no turn to come a step of a busy engine is one internal step (log 6). -/
theorem step_alone {s : State} (hbusy : s.status.busy = true) (hturns : s.turns = []) : step s = engineStep s := by
  simp [step, hturns, engineAlone, hbusy]

/-- The engine's turn is its move, the turn being over (R120, R126). -/
theorem step_engine {s : State} {ts : List Turn} (hbusy : s.status.busy = true) (hturns : s.turns = .engine :: ts) :
    step s = engineMove { s with turns := ts } := by
  simp [step, hturns, engineTurn, hbusy]

theorem engineMove_commandEffect {s t : State} (hs : s.Coherent) (h : engineMove s = .next t) :
    ∃ e, CommandEffect { s with engine := e } t := by
  obtain ⟨u, hrun, rfl⟩ := engineMove_next h
  obtain ⟨e, heffect⟩ := runCommand_commandEffect (s := { s with turns := [] }) hs hrun
  exact ⟨e, heffect.withTurns s.turns⟩

/-- With no turn to come, or on its own turn, a busy engine does what a last internal step does, on a state that differs in its
working state only. -/
theorem step_commandEffect {s t : State} {ts : List Turn} (hs : s.Coherent) (hbusy : s.status.busy = true)
    (hturns : s.turns = .engine :: ts ∨ (s.turns = [] ∧ ts = [])) (h : step s = .next t) :
    ∃ e, CommandEffect { s with turns := ts, engine := e } t := by
  rcases hturns with hturns | ⟨hturns, rfl⟩
  · rw [step_engine hbusy hturns] at h
    exact engineMove_commandEffect (s := { s with turns := ts }) hs h
  · rw [step_alone hbusy hturns] at h
    exact ⟨s.engine, hturns ▸ engineStep_commandEffect hs hbusy h⟩

/-! ## Confinement -/

/-- An error of the data stage changes no byte outside the destination region (R76). -/
theorem State.sameOutside_raiseData (s : State) (r : Region) (e : Err) : s.SameOutside (s.raiseData r e) r := by
  obtain ⟨-, -, -, -, -, -, -, houtside, -⟩ := State.raiseData_spec { s with status := Status.running } r e rfl
  exact houtside

/-- A byte that is not in the destination region lies before or after it (R77). -/
theorem State.not_mem_of_inDestination {s : State} {r : Region} {a : Nat} (hr : s.destination? = some r)
    (ha : s.inDestination a = false) : ¬ (r.addr ≤ a ∧ a < r.addr + r.len) := by
  simpa [State.inDestination, hr] using ha

/-- The engine writes only inside the destination region (R76). -/
theorem CommandEffect.byteAt_outside {s t : State} (h : CommandEffect s t) {a : Nat} (ha : s.inDestination a = false) :
    t.byteAt a = s.byteAt a := by
  cases h with
  | working | computed | checkFailed => rfl
  | dataFailed r e hr _ _ => exact s.sameOutside_raiseData r e a (State.not_mem_of_inDestination hr ha)
  | written r out _ _ hr hfit _ _ =>
    have hout := State.not_mem_of_inDestination hr ha
    rw [State.destination?_addr hr] at hout
    exact s.byteAt_memWrite_outside s.dst.toNat out a (by omega)

/-- A command that goes on or succeeds has written the first `DLEN` bytes of the destination at most (R127, R76). -/
theorem CommandEffect.sameOutside_of_success {s t : State} (h : CommandEffect s t) (ht : t.status.err = false) :
    s.SameOutside t { addr := s.dst.toNat, len := t.dlen.toNat } := by
  cases h with
  | working | computed => exact fun _ _ => rfl
  | checkFailed | dataFailed => cases ht
  | written r out icons adler _ _ hcap _ =>
    have hdlen : (BitVec.ofNat 32 out.length).toNat = out.length := by
      rw [BitVec.toNat_ofNat, Nat.mod_eq_of_lt (Nat.lt_of_le_of_lt hcap s.dcap.isLt)]
    intro a ha
    exact s.byteAt_memWrite_outside s.dst.toNat out a (by rwa [← hdlen])

/-- While the command goes on, `BUF` stays as it is (log 8). -/
theorem CommandEffect.sameBuf_of_busy {s t : State} (h : CommandEffect s t) (ht : t.status.busy = true) : s.SameBuf t := by
  obtain ⟨e, rfl⟩ := h.eq_of_busy ht
  exact fun _ => rfl

/-- A command that ends with an error leaves `BUF` as it is, unless the code is one its data stage raises here (R76). -/
theorem CommandEffect.sameBuf_of_error {s t : State} (h : CommandEffect s t) (hs : s.status.err = false)
    (ht : t.status.err = true) (hcode : ∀ e ∈ dataErrors (decodeCommand s.cmd),
      (s.engine = .idle → decodeCommand s.cmd = .modexp) → t.status.errCode ≠ e.code) : s.SameBuf t := by
  cases h with
  | working | computed | checkFailed => exact fun _ => rfl
  | dataFailed r e _ hmem hfirst => exact absurd rfl (hcode e hmem hfirst)
  | written => exact absurd (hs.symm.trans ht) (by decide)

/-- Settles O59: both moves are a `CommandEffect`, and the four facts above are read off its cases. -/
theorem engineWritesStayInTheDestination : Obligations.EngineWritesStayInTheDestination := by
  refine ⟨fun s t ts hs hbusy hturns h => ?_, fun s t hs hbusy hturns h => ?_⟩
  · have herr : s.status.err = false := hs.status_eq_running hbusy ▸ rfl
    obtain ⟨e, heffect⟩ := step_commandEffect hs hbusy (.inl hturns) h
    refine ⟨fun a ha => heffect.byteAt_outside ha, heffect.sameOutside_of_success, ?_, ?_⟩
    · intro e' he' ht hcode
      exact heffect.sameBuf_of_error herr ht fun e he _ => hcode ▸ (dataErrors_code_ne _ e he e' he').symm
    · intro hcmd ht hcode
      refine heffect.sameBuf_of_error herr ht fun e he _ => ?_
      have he : e ∈ dataErrors .defilter := hcmd ▸ he
      rw [hcode, List.mem_singleton.1 he]
      decide
  · have herr : s.status.err = false := hs.status_eq_running hbusy ▸ rfl
    have heffect := engineStep_commandEffect hs hbusy (step_alone hbusy hturns ▸ h)
    refine ⟨fun a ha => heffect.byteAt_outside ha, heffect.sameBuf_of_busy,
      fun _ ht => heffect.sameOutside_of_success ht, ?_⟩
    intro ht hidle hmodzero hrange
    refine heffect.sameBuf_of_error herr ht fun e he hfirst => ?_
    rw [hfirst hidle] at he
    rcases List.mem_pair.1 he with rfl | rfl
    · exact hmodzero
    · exact hrange

/-! ## Result registers -/

/-- The engine writes no operand register and no parameter (R60, R43). -/
theorem CommandEffect.sameInputs {s t : State} (h : CommandEffect s t) : s.SameInputs t := by
  cases h <;> exact ⟨rfl, rfl, rfl, rfl, rfl, rfl, rfl, rfl, rfl, rfl, rfl, rfl, rfl, rfl, rfl, rfl⟩

/-- On an error `DLEN` is 0 and the other result registers stay (R128). -/
theorem CommandEffect.results_of_error {s t : State} (h : CommandEffect s t) (hs : s.status.err = false)
    (ht : t.status.err = true) : t.dlen = 0#32 ∧ t.icons = s.icons ∧ t.adler = s.adler ∧ t.crcVal = s.crcVal := by
  cases h with
  | checkFailed | dataFailed => exact ⟨rfl, rfl, rfl, rfl⟩
  | working | computed | written => exact absurd (hs.symm.trans ht) (by decide)

/-- Only INFLATE writes `ICONS` and `ADLER` (R21). -/
theorem CommandEffect.icons_adler_eq {s t : State} (h : CommandEffect s t) (hcmd : decodeCommand s.cmd ≠ .inflate) :
    t.icons = s.icons ∧ t.adler = s.adler := by
  cases h with
  | written _ _ _ _ _ _ _ hkeep => exact hkeep hcmd
  | _ => exact ⟨rfl, rfl⟩

/-- Only the CRC commands write `CRC_VAL` (R21). -/
theorem CommandEffect.crcVal_eq {s t : State} (h : CommandEffect s t)
    (hcmd : decodeCommand s.cmd ∉ [.crc32, .crc32Cont, .crcCheck]) : t.crcVal = s.crcVal := by
  cases h with
  | computed _ _ hv _ => exact hv hcmd
  | _ => rfl

/-- Only CRC_CHECK writes `MATCH` (R144). -/
theorem CommandEffect.matched_eq {s t : State} (h : CommandEffect s t) (hcmd : decodeCommand s.cmd ≠ .crcCheck) :
    t.status.matched = s.status.matched := by
  cases h with
  | computed _ _ _ hm => exact hm hcmd
  | _ => rfl

/-- Settles O60: both moves are a `CommandEffect`, and each clause is read off its cases. -/
theorem engineWritesOnlyResultRegisters : Obligations.EngineWritesOnlyResultRegisters := by
  intro s t ts hs hbusy hturns h
  have hrunning := hs.status_eq_running hbusy
  obtain ⟨e, heffect⟩ := step_commandEffect hs hbusy hturns h
  refine ⟨heffect.sameInputs, fun ht => ?_, heffect.results_of_error (hrunning ▸ rfl), heffect.icons_adler_eq,
    heffect.crcVal_eq, fun hcmd => ?_⟩
  · obtain ⟨e', rfl⟩ := heffect.eq_of_busy ht
    exact ⟨rfl, rfl, rfl, rfl, rfl⟩
  · exact (heffect.matched_eq hcmd).trans (hrunning ▸ rfl)

end Sys2Proof.Machine
end

section
/-! PROOF. Fields and codes as bit sequences (30_encoding.md R93): `fieldBits` and `fieldValue` are inverse to each other, a
code is a field read backwards, and the readers of Decode.lean answer exactly the values whose bits stand next (43_inflate.md
R172). -/

namespace Sys2Proof.Machine

/-! ## Fields -/

theorem fieldValue_lt (bs : Bits) : fieldValue bs < 2 ^ bs.length := by
  induction bs with
  | nil => simp [fieldValue]
  | cons b bs ih =>
    have := b.toNat_le
    rw [fieldValue, List.length_cons, pow_succ]
    omega

/-- The bits of a value give the value back, modulo the width of the field. -/
theorem fieldValue_fieldBits (n v : Nat) : fieldValue (fieldBits n v) = v % 2 ^ n := by
  induction n generalizing v with
  | zero => simp [fieldBits, fieldValue, Nat.mod_one]
  | succ n ih =>
    have hbit : (v % 2 == 1).toNat = v % 2 := by rcases Nat.mod_two_eq_zero_or_one v with h | h <;> simp [h]
    rw [fieldBits, fieldValue, ih, hbit, pow_succ', Nat.mod_mul]

/-- A bit sequence is determined by its length and its value as a field. -/
theorem fieldBits_fieldValue (bs : Bits) : fieldBits bs.length (fieldValue bs) = bs := by
  induction bs with
  | nil => rfl
  | cons b bs ih =>
    have hhead : ((b.toNat + 2 * fieldValue bs) % 2 == 1) = b := by cases b <;> simp
    have htail : (b.toNat + 2 * fieldValue bs) / 2 = fieldValue bs := by have := b.toNat_lt; omega
    rw [List.length_cons, fieldValue, fieldBits, hhead, htail, ih]

/-- A field of `m + n` bits is its low `m` bits and then the others. -/
theorem fieldBits_add (m n v : Nat) : fieldBits (m + n) v = fieldBits m v ++ fieldBits n (v / 2 ^ m) := by
  induction m generalizing v with
  | zero => simp [fieldBits]
  | succ m ih => rw [Nat.succ_add, fieldBits, fieldBits, ih, Nat.div_div_eq_div_mul, pow_succ', List.cons_append]

/-- A field holds its value modulo its width. -/
theorem fieldBits_mod (n v : Nat) : fieldBits n (v % 2 ^ n) = fieldBits n v := by
  have h := fieldBits_fieldValue (fieldBits n v)
  rwa [fieldBits_length, fieldValue_fieldBits] at h

theorem fieldBits_getElem? (n v k : Nat) : (fieldBits n v)[k]? = if k < n then some (v.testBit k) else none := by
  induction n generalizing v k with
  | zero => simp [fieldBits]
  | succ n ih =>
    cases k with
    | zero => simp [fieldBits, Nat.testBit_zero, beq_eq_decide]
    | succ k => simp [fieldBits, ih, Nat.testBit_succ]

/-! ## Codes -/

/-- A Huffman code read most significant bit first is the field of the reversed bits (R93 (b)). -/
theorem codeValue_eq (bs : Bits) : codeValue bs = fieldValue bs.reverse := by
  induction bs using List.reverseRecOn with
  | nil => rfl
  | append_singleton bs b ih =>
    rw [codeValue, List.foldl_append, ← codeValue, ih, List.reverse_append]
    simp only [List.foldl_cons, List.foldl_nil, List.reverse_singleton, List.singleton_append, fieldValue]
    omega

theorem codeBits_length (n v : Nat) : (codeBits n v).length = n := encodedLength_code n v

theorem codeValue_lt (bs : Bits) : codeValue bs < 2 ^ bs.length := by
  have := fieldValue_lt bs.reverse
  rwa [List.length_reverse, ← codeValue_eq] at this

theorem codeValue_codeBits {n v : Nat} (h : v < 2 ^ n) : codeValue (codeBits n v) = v := by
  rw [codeValue_eq, codeBits, List.reverse_reverse, fieldValue_fieldBits, Nat.mod_eq_of_lt h]

/-- A code is determined by its length and its value. -/
theorem codeBits_codeValue (bs : Bits) : codeBits bs.length (codeValue bs) = bs := by
  have h := fieldBits_fieldValue bs.reverse
  rw [List.length_reverse] at h
  rw [codeValue_eq, codeBits, h, List.reverse_reverse]

/-- The first bits of a code are the code divided by a power of two. -/
theorem codeBits_take (m n v : Nat) : (codeBits (m + n) v).take m = codeBits m (v / 2 ^ n) := by
  rw [codeBits, Nat.add_comm, fieldBits_add, List.reverse_append, ← codeBits, ← codeBits]
  exact List.take_left' (codeBits_length _ _)

/-! ## The readers -/

theorem takeBits_eq {n : Nat} {bs : Bits} (h : n ≤ bs.length) : takeBits n bs = .ok (bs.take n, bs.drop n) := if_pos h

theorem takeBits_truncated {n : Nat} {bs : Bits} (h : bs.length < n) : takeBits n bs = .error .truncated :=
  if_neg (by omega)

theorem takeBits_ok {n : Nat} {bs c rest : Bits} (h : takeBits n bs = .ok (c, rest)) :
    n ≤ bs.length ∧ c = bs.take n ∧ rest = bs.drop n := by
  unfold takeBits at h
  split at h <;> cases h
  next hn => exact ⟨hn, rfl, rfl⟩

/-- The only way a read fails (R172). -/
theorem takeBits_error {n : Nat} {bs : Bits} {e : Reject} (h : takeBits n bs = .error e) : e = .truncated ∧ bs.length < n := by
  unfold takeBits at h
  split at h <;> cases h
  next hn => exact ⟨rfl, by omega⟩

theorem getField_eq {n : Nat} {bs : Bits} (h : n ≤ bs.length) :
    getField n bs = .ok (BitVec.ofNat n (fieldValue (bs.take n)), bs.drop n) := by
  simp [getField, takeBits_eq h]

@[simp] theorem getField_truncated {n : Nat} {bs : Bits} (h : bs.length < n) : getField n bs = .error .truncated := by
  simp [getField, takeBits_truncated h]

/-- The value of the `n` bits that stand next fits in `n` bits. -/
theorem toNat_ofNat_fieldValue_take {n : Nat} {bs : Bits} (h : n ≤ bs.length) :
    (BitVec.ofNat n (fieldValue (bs.take n))).toNat = fieldValue (bs.take n) := by
  have := fieldValue_lt (bs.take n)
  rw [List.length_take_of_le h] at this
  rw [BitVec.toNat_ofNat, Nat.mod_eq_of_lt this]

theorem fieldBits_take {n : Nat} {bs : Bits} (h : n ≤ bs.length) :
    fieldBits n (BitVec.ofNat n (fieldValue (bs.take n))).toNat = bs.take n := by
  rw [toNat_ofNat_fieldValue_take h]
  have hbits := fieldBits_fieldValue (bs.take n)
  rwa [List.length_take_of_le h] at hbits

/-- A field that stands next is read (R172). -/
@[simp] theorem getField_fieldBits (n : Nat) (v : BitVec n) (rest : Bits) :
    getField n (fieldBits n v.toNat ++ rest) = .ok (v, rest) := by
  rw [getField_eq (by simp [fieldBits_length]), List.take_left' (fieldBits_length _ _), List.drop_left' (fieldBits_length _ _),
    fieldValue_fieldBits, Nat.mod_eq_of_lt v.isLt, BitVec.ofNat_toNat, BitVec.setWidth_eq]

/-- What is read as a field is the bits of its value (R172). -/
theorem getField_ok {n : Nat} {bs rest : Bits} {v : BitVec n} (h : getField n bs = .ok (v, rest)) :
    bs = fieldBits n v.toNat ++ rest := by
  by_cases hn : n ≤ bs.length
  · rw [getField_eq hn] at h
    cases h
    rw [fieldBits_take hn, List.take_append_drop]
  · rw [getField_truncated (by omega)] at h
    cases h

/-- The bits of fields of one width, one after the other. -/
def fieldsBits {k : Nat} (vs : List (BitVec k)) : Bits :=
  vs.flatMap fun v => fieldBits k v.toNat

@[simp] theorem fieldsBits_cons {k : Nat} (v : BitVec k) (vs : List (BitVec k)) :
    fieldsBits (v :: vs) = fieldBits k v.toNat ++ fieldsBits vs := rfl

@[simp] theorem getFields_fieldsBits {k : Nat} (vs : List (BitVec k)) (rest : Bits) :
    getFields k vs.length (fieldsBits vs ++ rest) = .ok (vs, rest) := by
  induction vs with
  | nil => rfl
  | cons v vs ih => simp [getFields, ih]

theorem getFields_ok {k n : Nat} {bs rest : Bits} {vs : List (BitVec k)} (h : getFields k n bs = .ok (vs, rest)) :
    bs = fieldsBits vs ++ rest := by
  induction n generalizing bs vs with
  | zero => cases h; rfl
  | succ n ih =>
    unfold getFields at h
    split at h
    · cases h
    next hv =>
    split at h <;> cases h
    next hvs => rw [fieldsBits_cons, List.append_assoc, ← ih hvs, ← getField_ok hv]

theorem getFields_truncated {k n : Nat} {bs : Bits} (h : bs.length < k * n) : getFields k n bs = .error .truncated := by
  induction n generalizing bs with
  | zero => omega
  | succ n ih =>
    rw [Nat.mul_succ] at h
    by_cases hk : k ≤ bs.length
    · rw [getFields, getField_eq hk]
      simp only
      rw [ih (by rw [List.length_drop]; omega)]
    · rw [getFields, getField_truncated (by omega)]

/-- `n` fields that are there are read in their order (R183). -/
theorem getFields_eq {k n : Nat} {bs : Bits} (h : k * n ≤ bs.length) :
    ∃ vs, getFields k n bs = .ok (vs, bs.drop (k * n)) ∧ vs.length = n
      ∧ ∀ i, i < n → (vs.getD i 0#k).toNat = fieldValue ((bs.drop (k * i)).take k) := by
  induction n generalizing bs with
  | zero => exact ⟨[], rfl, rfl, fun i hi => absurd hi (Nat.not_lt_zero i)⟩
  | succ n ih =>
    rw [Nat.mul_succ] at h
    have hk : k ≤ bs.length := by omega
    obtain ⟨vs, hvs, hlen, hval⟩ := ih (bs := bs.drop k) (by rw [List.length_drop]; omega)
    refine ⟨BitVec.ofNat k (fieldValue (bs.take k)) :: vs, ?_, by rw [List.length_cons, hlen], fun i hi => ?_⟩
    · simp [getFields, getField_eq hk, hvs, List.drop_drop, Nat.mul_succ, Nat.add_comm]
    · cases i with
      | zero => simpa using toNat_ofNat_fieldValue_take hk
      | succ i => simpa [Nat.mul_succ, Nat.add_comm] using hval i (by omega)

theorem withExtra_eq {n : Nat} {bs : Bits} (mk : BitVec n → Instr) (h : n ≤ bs.length) :
    withExtra n mk bs = .ok (mk (BitVec.ofNat n (fieldValue (bs.take n))), bs.drop n) := by
  simp [withExtra, getField_eq h]

@[simp] theorem withExtra_truncated {n : Nat} {bs : Bits} (mk : BitVec n → Instr) (h : bs.length < n) :
    withExtra n mk bs = .error .truncated := by
  simp [withExtra, h]

@[simp] theorem withExtra_fieldBits {n : Nat} (mk : BitVec n → Instr) (v : BitVec n) (rest : Bits) :
    withExtra n mk (fieldBits n v.toNat ++ rest) = .ok (mk v, rest) := by
  simp [withExtra]

theorem withExtra_ok {n : Nat} {mk : BitVec n → Instr} {bs rest : Bits} {i : Instr} (h : withExtra n mk bs = .ok (i, rest)) :
    ∃ v, i = mk v ∧ bs = fieldBits n v.toNat ++ rest := by
  unfold withExtra at h
  split at h <;> cases h
  next hv => exact ⟨_, rfl, getField_ok hv⟩

end Sys2Proof.Machine
end

section
/-! PROOF. The opcode map (30_encoding.md R87, R89): which words are legal, and what the others decode to. -/

namespace Sys2Proof.Machine

/-- The legal words (R87). -/
def legalWords : List Word :=
  [0x00000000#32, 0x00000001#32, 0x00000101#32, 0x00000002#32, 0x00000003#32, 0x00000004#32, 0x00000005#32]

/-- R87's conditions on the bits of a word. -/
theorem legalWord_iff (w : Word) :
    legalWord w = true ↔ w.toNat / 2 ^ 16 = 0 ∧ w.toNat / 2 ^ 9 % 2 ^ 7 = 0 ∧ w.toNat % 2 ^ 8 ≤ 5
      ∧ (w.toNat / 2 ^ 8 % 2 = 0 ∨ w.toNat % 2 ^ 8 = 1) := by
  simp only [legalWord, Bool.and_eq_true, Bool.or_eq_true, beq_iff_eq, decide_eq_true_eq, and_assoc]

/-- The words that meet them are the seven of the table. -/
theorem legalWord_iff_mem (w : Word) : legalWord w = true ↔ w ∈ legalWords := by
  rw [legalWord_iff]
  simp only [legalWords, List.mem_cons, List.not_mem_nil, or_false, ← BitVec.toNat_inj, BitVec.toNat_ofNat]
  omega

theorem eq_of_legalWord {w : Word} (h : legalWord w = true) :
    w = 0x00000000#32 ∨ w = 0x00000001#32 ∨ w = 0x00000101#32 ∨ w = 0x00000002#32 ∨ w = 0x00000003#32 ∨ w = 0x00000004#32
      ∨ w = 0x00000005#32 := by
  simpa only [legalWords, List.mem_cons, List.not_mem_nil, or_false] using (legalWord_iff_mem w).1 h

theorem decodeCommand_of_not_legal {w : Word} (h : legalWord w = false) : decodeCommand w = .illegalCmd w := by
  have hbits := mt (legalWord_iff w).2 (by simp [h])
  unfold decodeCommand
  split
  · rfl
  · split
    case h_8 => rfl
    all_goals omega

theorem decodeCommand_of_legal {w : Word} (h : legalWord w = true) : decodeCommand w ≠ .illegalCmd w := by
  rcases eq_of_legalWord h with rfl | rfl | rfl | rfl | rfl | rfl | rfl <;> exact nofun

/-- Settles O12: R87's bit conditions are `legalWord_iff`, its table `legalWord_iff_mem`. -/
theorem legalWordsAreTheSevenOfTheTable : Obligations.LegalWordsAreTheSevenOfTheTable := by
  refine ⟨rfl, rfl, rfl, rfl, rfl, rfl, rfl, fun w => ⟨legalWord_iff_mem w, legalWord_iff w, decodeCommand_of_not_legal, ?_⟩⟩
  intro h
  exact Bool.eq_false_iff.2 fun hlegal => decodeCommand_of_legal hlegal h

/-- The internal step of a command word executes it. -/
theorem engineStep_command {s : State} (he : s.engine = .idle) : engineStep s = exec (decodeCommand s.cmd) s := by
  simp [engineStep, fetch, he]

theorem core_run_succ (M : Host.Core) {s t : M.State} (k : Nat) (h : M.step s = .next t) : M.run (k + 1) s = M.run k t := by
  simp [Host.Core.run, h]

/-- A run is a step and then the run from its state. -/
theorem runEngine_succ {s t : State} (k : Nat) (h : step s = .next t) : runEngine (k + 1) s = runEngine k t :=
  core_run_succ Sys2Proof.core k h

/-- A write to `CMD` while `BUSY = 0` issues the word (R124). -/
theorem hostMove_issue {s : State} (w : Word) (hbusy : s.status.busy = false) :
    hostMove s (.regWrite s.params.regBase 4 w) = .next (s.issue w) := by
  simp [hostMove, Params.regIndex?, State.writeRegister, State.writeIdle, hbusy]

/-- Settles O14: the first move issues the word, the second executes it as the illegal command it decodes to. -/
theorem illegalWordsRaiseECmd : Obligations.IllegalWordsRaiseECmd := by
  refine ⟨fun s w hs => ⟨_, rfl, s.raise_spec .cmd hs⟩, fun s w hbusy hidle hturns hw => ?_⟩
  have hdecode : decodeCommand w = .illegalCmd w :=
    decodeCommand_of_not_legal (Bool.eq_false_iff.2 (mt (legalWord_iff_mem w).1 hw))
  let u := State.issue { s with turns := [] } w
  have hissue : step s = .next u := by
    rw [step_host s _ [] hturns]
    exact hostMove_issue w hbusy
  have hrun : step u = .next (u.raise .cmd) := by
    rw [step_alone rfl rfl, engineStep_command (s := u) hidle, State.issue_cmd, hdecode]
    rfl
  have htwo : runEngine 2 s = .next (u.raise .cmd) := (runEngine_succ 1 hissue).trans (runEngine_succ 0 hrun)
  rw [htwo]
  simp [u, State.raise, State.issue, hidle]

end Sys2Proof.Machine
end

section
/-! PROOF. The decoders of Decode.lean and the encoder are inverse to each other: what stands next in the stream as the encoding
of an instruction is decoded to it (30_encoding.md R85 to R110), and what a decoder reads is the encoding of what it answers. -/

namespace Sys2Proof.Machine

/-! ## Decoding an encoding -/

theorem decode_cmdWord (w : Word) (rest : Bits) :
    decode .cmdWord (fieldBits 32 w.toNat ++ rest) = .ok (decodeCommand w, rest) := by
  simp [decode]

theorem decode_filterByte (b : Byte) (rest : Bits) :
    decode .filterByte (fieldBits 8 b.toNat ++ rest) = .ok (decodeFilterByte b, rest) := by
  simp [decode, getByte]

/-- A symbol number of `n` bits that stands next is read as that number. -/
theorem getField_symbol {n s : Nat} (hs : s < 2 ^ n) (rest : Bits) :
    getField n (fieldBits n s ++ rest) = .ok (BitVec.ofNat n s, rest) := by
  simpa [Nat.mod_eq_of_lt hs] using getField_fieldBits n (BitVec.ofNat n s) rest

theorem decode_clSymbol {s : Nat} (hs : s < 2 ^ 5) (rest : Bits) :
    decode .clSymbol (fieldBits 5 s ++ rest) = decodeClSymbol s rest := by
  simp only [decode, getField_symbol hs, BitVec.toNat_ofNat, Nat.mod_eq_of_lt hs]

theorem decode_litLenSymbol {s : Nat} (hs : s < 2 ^ 9) (rest : Bits) :
    decode .litLenSymbol (fieldBits 9 s ++ rest) = decodeLitLenSymbol s rest := by
  simp only [decode, getField_symbol hs, BitVec.toNat_ofNat, Nat.mod_eq_of_lt hs]

theorem decode_distSymbol {s : Nat} (hs : s < 2 ^ 5) (rest : Bits) :
    decode .distSymbol (fieldBits 5 s ++ rest) = decodeDistSymbol s rest := by
  simp only [decode, getField_symbol hs, BitVec.toNat_ofNat, Nat.mod_eq_of_lt hs]

/-- A symbol and its extra field (R93, R100, R101, R103), in each of the three alphabets `f`, `decodeSymbol`. -/
theorem decode_symbolBits {f : Format} {decodeSymbol : Nat → Bits → Except Reject (Instr × Bits)} {n s k : Nat}
    {mk : BitVec k → Instr} (hf : ∀ rest, decode f (fieldBits n s ++ rest) = decodeSymbol s rest)
    (hs : ∀ bs, decodeSymbol s bs = withExtra k mk bs) (e : BitVec k) (rest : Bits) :
    decode f (symbolBits n s k e.toNat ++ rest) = .ok (mk e, rest) := by
  rw [symbolBits, List.append_assoc, hf, hs, withExtra_fieldBits]

theorem decodeClSymbol_len (l : BitVec 4) (bs : Bits) : decodeClSymbol l.toNat bs = .ok (.clLen0To15 l, bs) := by
  have := l.isLt
  simp [decodeClSymbol, show l.toNat ≤ 15 by omega]

theorem decodeLitLenSymbol_literal (b : Byte) (bs : Bits) : decodeLitLenSymbol b.toNat bs = .ok (.literal b, bs) := by
  have := b.isLt
  simp [decodeLitLenSymbol, show b.toNat ≤ 255 by omega]

/-- The header by its fields in stream order (R92). -/
theorem decodeHeader_fields {cm cinfo fcheck flevel : Bits} (fdict : Bool) (rest : Bits) (hcm : cm.length = 4)
    (hcinfo : cinfo.length = 4) (hfcheck : fcheck.length = 5) (hflevel : flevel.length = 2) :
    decodeHeader (cm ++ cinfo ++ fcheck ++ [fdict] ++ flevel ++ rest) =
      if fieldValue cm ≠ 8 then .error .notDeflate
      else .ok (.zlibHeader (BitVec.ofNat 4 (fieldValue cinfo)) (BitVec.ofNat 2 (fieldValue flevel)) fdict
        (BitVec.ofNat 5 (fieldValue fcheck)), rest) := by
  have hlen : (cm ++ cinfo ++ fcheck ++ [fdict] ++ flevel).length = 16 := by simp [*]
  rw [decodeHeader, takeBits_eq (by rw [List.length_append, hlen]; omega), List.take_left' hlen, List.drop_left' hlen]
  have hlast : flevel.take 2 = flevel := List.take_of_length_le hflevel.le
  have hbeyond (l : Bits) (n : Nat) (hn : l.length ≤ n) : l.drop n = [] := List.drop_eq_nil_of_le hn
  simp [List.drop_append, *]

theorem decode_zlibHeader_encode (cinfo : BitVec 4) (flevel : BitVec 2) (fdict : Bool) (fcheck : BitVec 5) (rest : Bits) :
    decode .zlibHeader (encode (.zlibHeader cinfo flevel fdict fcheck) ++ rest) =
      .ok (.zlibHeader cinfo flevel fdict fcheck, rest) := by
  have hcinfo := cinfo.isLt
  have hflevel := flevel.isLt
  have hfcheck := fcheck.isLt
  rw [decode, encode, decodeHeader_fields fdict rest (fieldBits_length _ _) (fieldBits_length _ _) (fieldBits_length _ _)
    (fieldBits_length _ _)]
  simp [fieldValue_fieldBits, Nat.mod_eq_of_lt hcinfo, Nat.mod_eq_of_lt hflevel, Nat.mod_eq_of_lt hfcheck]

/-- The first `m` bits of a code of `m + n` bits are read as its value divided by `2^n`. -/
theorem takeBits_codeBits {m n v : Nat} (hv : v < 2 ^ (m + n)) (rest : Bits) :
    ∃ c r, takeBits m (codeBits (m + n) v ++ rest) = .ok (c, r) ∧ codeValue c = v / 2 ^ n := by
  refine ⟨_, _, takeBits_eq (by simp [codeBits_length, Nat.add_assoc]), ?_⟩
  rw [List.take_append_of_le_length (by simp [codeBits_length]), codeBits_take, codeValue_codeBits]
  rw [pow_add] at hv
  exact Nat.div_lt_of_lt_mul (by rwa [Nat.mul_comm])

theorem decodeFixedLitLen_7 {c : BitVec 7} (hc : c.toNat ≤ 0x17) (rest : Bits) :
    decodeFixedLitLen (codeBits 7 c.toNat ++ rest) = .ok (.fixedLl256To279 c, rest) := by
  obtain ⟨c7, _, h7, hv7⟩ := takeBits_codeBits (m := 7) (n := 0) c.isLt rest
  have hv : codeValue c7 = c.toNat := by simpa using hv7
  simp [decodeFixedLitLen, h7, hv, hc, List.drop_left' (codeBits_length _ _)]

/-- A code that is longer than 7 bits: the first seven are above the table's codes of 7 bits. -/
theorem decodeFixedLitLen_8 {c : BitVec 8} (hlow : 0x30 ≤ c.toNat) (hhigh : c.toNat ≤ 0xC7) (rest : Bits) :
    decodeFixedLitLen (codeBits 8 c.toNat ++ rest) =
      .ok (if c.toNat ≤ 0xBF then .fixedLl0To143 c else .fixedLl280To287 c, rest) := by
  obtain ⟨c7, _, h7, hv7⟩ := takeBits_codeBits (m := 7) (n := 1) c.isLt rest
  obtain ⟨c8, _, h8, hv8⟩ := takeBits_codeBits (m := 8) (n := 0) c.isLt rest
  have hv : codeValue c8 = c.toNat := by simpa using hv8
  have h7above : ¬ codeValue c7 ≤ 0x17 := by omega
  by_cases hc : c.toNat ≤ 0xBF
  · simp [decodeFixedLitLen, h7, h8, h7above, hv, hc, List.drop_left' (codeBits_length _ _)]
  · simp [decodeFixedLitLen, h7, h8, h7above, hv, hc, hhigh, List.drop_left' (codeBits_length _ _)]

theorem decodeFixedLitLen_9 {c : BitVec 9} (hlow : 0x190 ≤ c.toNat) (rest : Bits) :
    decodeFixedLitLen (codeBits 9 c.toNat ++ rest) = .ok (.fixedLl144To255 c, rest) := by
  obtain ⟨c7, _, h7, hv7⟩ := takeBits_codeBits (m := 7) (n := 2) c.isLt rest
  obtain ⟨c8, _, h8, hv8⟩ := takeBits_codeBits (m := 8) (n := 1) c.isLt rest
  obtain ⟨c9, _, h9, hv9⟩ := takeBits_codeBits (m := 9) (n := 0) c.isLt rest
  have hv : codeValue c9 = c.toNat := by simpa using hv9
  have h7above : ¬ codeValue c7 ≤ 0x17 := by omega
  have h8above : ¬ codeValue c8 ≤ 0xBF ∧ ¬ codeValue c8 ≤ 0xC7 := by omega
  simp [decodeFixedLitLen, h7, h8, h9, h7above, h8above, hv, List.drop_left' (codeBits_length _ _)]

theorem decodeFixedDist_codeBits (c : BitVec 5) (rest : Bits) :
    decodeFixedDist (codeBits 5 c.toNat ++ rest) = .ok (.fixedDist0To31 c, rest) := by
  simp [decodeFixedDist, takeBits_eq, codeBits_length, codeValue_codeBits c.isLt]

theorem decodeFilterByte_illegal {b : Byte} (h : 5 ≤ b.toNat) : decodeFilterByte b = .filterIllegal b := by
  unfold decodeFilterByte
  split
  case h_6 => rfl
  all_goals omega

theorem decodeTrailer_encode (a : Word) (rest : Bits) :
    decodeTrailer (encode (.zlibTrailer a) ++ rest) = .ok (.zlibTrailer a, rest) := by
  have h := getFields_fieldsBits (serBe 4 a.toNat) rest
  rw [serBe_length] at h
  rw [decodeTrailer, encode, ← fieldsBits, h]
  simp [be_serBe (n := 4) a.isLt]

/-- Settles O53: one case for each format, a symbol with an extra field by `decode_symbolBits`. -/
theorem decodeOfEncodeIsTheInstruction : Obligations.DecodeOfEncodeIsTheInstruction := by
  intro i rest hwf
  cases i with
  | nop | crc32 | crc32Cont | crcCheck | defilter | inflate | modexp => exact decode_cmdWord _ rest
  | illegalCmd w =>
    rw [Instr.format, encode, decode_cmdWord, decodeCommand_of_not_legal (by simpa [Instr.wellFormed] using hwf)]
  | zlibHeader cinfo flevel fdict fcheck => exact decode_zlibHeader_encode cinfo flevel fdict fcheck rest
  | blockStored _ | blockFixed _ | blockDynamic _ | blockReserved _ => rfl
  | storedLen len nlen => simp [Instr.format, encode, decode, decodeStoredBody]
  | dynCounts hlit hdist hclen => simp [Instr.format, encode, decode, decodeDynCounts]
  | dynClLens lens =>
    show decodeDynClLens lens.length (fieldsBits lens ++ rest) = _
    simp [decodeDynClLens]
  | clLen0To15 l => exact (decode_clSymbol (by have := l.isLt; omega) rest).trans (decodeClSymbol_len l rest)
  | clRepeatPrev e | clZeros3To10 e | clZeros11To138 e =>
    exact decode_symbolBits (decode_clSymbol (by decide)) (fun _ => rfl) e rest
  | fixedLl0To143 c =>
    simp only [Instr.wellFormed, Bool.and_eq_true, decide_eq_true_eq] at hwf
    exact (decodeFixedLitLen_8 hwf.1 (by omega) rest).trans (by rw [if_pos hwf.2])
  | fixedLl144To255 c => exact decodeFixedLitLen_9 (by simpa [Instr.wellFormed] using hwf) rest
  | fixedLl256To279 c => exact decodeFixedLitLen_7 (by simpa [Instr.wellFormed] using hwf) rest
  | fixedLl280To287 c =>
    simp only [Instr.wellFormed, Bool.and_eq_true, decide_eq_true_eq] at hwf
    exact (decodeFixedLitLen_8 (by omega) hwf.2 rest).trans (by rw [if_neg (by omega)])
  | fixedDist0To31 c => exact decodeFixedDist_codeBits c rest
  | literal b => exact (decode_litLenSymbol (by have := b.isLt; omega) rest).trans (decodeLitLenSymbol_literal b rest)
  | endOfBlock | len257 | len258 | len259 | len260 | len261 | len262 | len263 | len264 | len285 =>
    exact decode_litLenSymbol (by decide) rest
  | len265 e | len266 e | len267 e | len268 e | len269 e | len270 e | len271 e | len272 e | len273 e | len274 e | len275 e
  | len276 e | len277 e | len278 e | len279 e | len280 e | len281 e | len282 e | len283 e | len284 e =>
    exact decode_symbolBits (decode_litLenSymbol (by decide)) (fun _ => rfl) e rest
  | ll286To287 odd => cases odd <;> exact decode_litLenSymbol (by decide) rest
  | dist0 | dist1 | dist2 | dist3 => exact decode_distSymbol (by decide) rest
  | dist4 e | dist5 e | dist6 e | dist7 e | dist8 e | dist9 e | dist10 e | dist11 e | dist12 e | dist13 e | dist14 e
  | dist15 e | dist16 e | dist17 e | dist18 e | dist19 e | dist20 e | dist21 e | dist22 e | dist23 e | dist24 e | dist25 e
  | dist26 e | dist27 e | dist28 e | dist29 e =>
    exact decode_symbolBits (decode_distSymbol (by decide)) (fun _ => rfl) e rest
  | dist30To31 odd => cases odd <;> exact decode_distSymbol (by decide) rest
  | zlibTrailer a => exact decodeTrailer_encode a rest
  | filterNone => exact decode_filterByte 0#8 rest
  | filterSub => exact decode_filterByte 1#8 rest
  | filterUp => exact decode_filterByte 2#8 rest
  | filterAverage => exact decode_filterByte 3#8 rest
  | filterPaeth => exact decode_filterByte 4#8 rest
  | filterIllegal b =>
    rw [Instr.format, encode, decode_filterByte, decodeFilterByte_illegal (by simpa [Instr.wellFormed] using hwf)]

/-! ## Encoding what was decoded -/

/-- What a decoder reads from `bs`, if it reads anything, is the encoding of what it answers. -/
def Spells (bs : Bits) (r : Except Reject (Instr × Bits)) : Prop :=
  ∀ i rest, r = .ok (i, rest) → bs = encode i ++ rest

theorem spells_ok {bs rest : Bits} {i : Instr} (h : bs = encode i ++ rest) : Spells bs (.ok (i, rest)) := by
  rintro i' rest' h'
  cases h'
  exact h

@[simp] theorem spells_error (bs : Bits) (e : Reject) : Spells bs (.error e) := by
  rintro i rest h
  cases h

/-- A symbol number `code` with an extra field after it. -/
theorem spells_withExtra {n : Nat} {mk : BitVec n → Instr} {code : Bits} (bs : Bits)
    (h : ∀ e, encode (mk e) = code ++ fieldBits n e.toNat) : Spells (code ++ bs) (withExtra n mk bs) := by
  intro i rest hread
  obtain ⟨e, rfl, rfl⟩ := withExtra_ok hread
  rw [h, List.append_assoc]

theorem decodeCommand_encode (w : Word) : encode (decodeCommand w) = fieldBits 32 w.toNat := by
  cases hw : legalWord w with
  | false => rw [decodeCommand_of_not_legal hw, encode]
  | true =>
    rcases eq_of_legalWord hw with rfl | rfl | rfl | rfl | rfl | rfl | rfl <;> rfl

theorem decodeFilterByte_encode (b : Byte) : encode (decodeFilterByte b) = fieldBits 8 b.toNat := by
  unfold decodeFilterByte
  split
  case h_6 => rfl
  all_goals next h => rw [h, encode]

theorem decodeClSymbol_spells (s : Nat) (bs : Bits) : Spells (fieldBits 5 s ++ bs) (decodeClSymbol s bs) := by
  unfold decodeClSymbol
  split
  · next hs => exact spells_ok (by rw [encode, BitVec.toNat_ofNat, Nat.mod_eq_of_lt (by omega)])
  · split
    · exact spells_withExtra bs fun _ => rfl
    · exact spells_withExtra bs fun _ => rfl
    · exact spells_withExtra bs fun _ => rfl
    · exact spells_error _ _

theorem decodeLitLenSymbol_spells (s : Nat) (bs : Bits) : Spells (fieldBits 9 s ++ bs) (decodeLitLenSymbol s bs) := by
  unfold decodeLitLenSymbol
  split
  · next hs => exact spells_ok (by rw [encode, BitVec.toNat_ofNat, Nat.mod_eq_of_lt (by omega)])
  · split
    all_goals first
      | exact spells_ok rfl
      | exact spells_withExtra bs fun _ => rfl
      | exact spells_error _ _

theorem decodeDistSymbol_spells (d : Nat) (bs : Bits) : Spells (fieldBits 5 d ++ bs) (decodeDistSymbol d bs) := by
  unfold decodeDistSymbol
  split
  all_goals first
    | exact spells_ok rfl
    | exact spells_withExtra bs fun _ => rfl
    | exact spells_error _ _

/-- The first `n` bits, where there are so many. -/
theorem exists_append_of_le_length {n : Nat} {bs : Bits} (h : n ≤ bs.length) : ∃ a r, bs = a ++ r ∧ a.length = n :=
  ⟨bs.take n, bs.drop n, (List.take_append_drop n bs).symm, List.length_take_of_le h⟩

theorem decodeHeader_truncated {bs : Bits} (h : bs.length < 16) : decodeHeader bs = .error .truncated := by
  simp [decodeHeader, takeBits_truncated h]

/-- Bits that are not too few are the five fields of a header (R92). -/
theorem header_fields {bs : Bits} (h : 16 ≤ bs.length) :
    ∃ cm cinfo fcheck fdict flevel rest, bs = cm ++ cinfo ++ fcheck ++ [fdict] ++ flevel ++ rest ∧ cm.length = 4
      ∧ cinfo.length = 4 ∧ fcheck.length = 5 ∧ flevel.length = 2 := by
  obtain ⟨cm, r1, rfl, h1⟩ := exists_append_of_le_length (n := 4) (bs := bs) (by omega)
  obtain ⟨cinfo, r2, rfl, h2⟩ := exists_append_of_le_length (n := 4) (bs := r1) (by simp at h; omega)
  obtain ⟨fcheck, r3, rfl, h3⟩ := exists_append_of_le_length (n := 5) (bs := r2) (by simp at h; omega)
  obtain ⟨fdict, r4, rfl⟩ := List.exists_cons_of_length_pos (l := r3) (by simp at h; omega)
  obtain ⟨flevel, r5, rfl, h5⟩ := exists_append_of_le_length (n := 2) (bs := r4) (by simp at h; omega)
  exact ⟨cm, cinfo, fcheck, fdict, flevel, r5, by simp, h1, h2, h3, h5⟩

/-- The bits of a field are those of its value. -/
theorem fieldBits_ofNat_fieldValue {n : Nat} {bs : Bits} (h : bs.length = n) :
    fieldBits n (BitVec.ofNat n (fieldValue bs)).toNat = bs := by
  rw [BitVec.toNat_ofNat, fieldBits_mod, ← h, fieldBits_fieldValue]

theorem decodeHeader_spells (bs : Bits) : Spells bs (decodeHeader bs) := by
  by_cases h : 16 ≤ bs.length
  · obtain ⟨cm, cinfo, fcheck, fdict, flevel, rest, rfl, hcm, hcinfo, hfcheck, hflevel⟩ := header_fields h
    rw [decodeHeader_fields fdict rest hcm hcinfo hfcheck hflevel]
    split
    · exact spells_error _ _
    · next h8 =>
      have hcmbits : fieldBits 4 8 = cm := by rw [← hcm, ← not_not.1 h8, fieldBits_fieldValue]
      apply spells_ok
      rw [encode, hcmbits, fieldBits_ofNat_fieldValue hcinfo, fieldBits_ofNat_fieldValue hfcheck,
        fieldBits_ofNat_fieldValue hflevel]
  · rw [decodeHeader_truncated (by omega)]
    exact spells_error _ _

theorem decodeBlockHeader_spells (bs : Bits) : Spells bs (decodeBlockHeader bs) := by
  unfold decodeBlockHeader
  split
  · next f t0 t1 rest => cases t0 <;> cases t1 <;> exact spells_ok rfl
  · exact spells_error _ _

theorem decodeStoredBody_spells (bs : Bits) : Spells bs (decodeStoredBody bs) := by
  unfold decodeStoredBody
  split
  · exact spells_error _ _
  next hlen =>
  split
  · exact spells_error _ _
  next hnlen =>
  exact spells_ok (by rw [encode, List.append_assoc, ← getField_ok hnlen, ← getField_ok hlen])

theorem decodeDynCounts_spells (bs : Bits) : Spells bs (decodeDynCounts bs) := by
  unfold decodeDynCounts
  split
  · exact spells_error _ _
  next hhlit =>
  split
  · exact spells_error _ _
  next hhdist =>
  split
  · exact spells_error _ _
  next hhclen =>
  exact spells_ok (by
    rw [encode, List.append_assoc, List.append_assoc, ← getField_ok hhclen, ← getField_ok hhdist, ← getField_ok hhlit])

theorem decodeDynClLens_spells (ncl : Nat) (bs : Bits) : Spells bs (decodeDynClLens ncl bs) := by
  unfold decodeDynClLens
  split
  · exact spells_error _ _
  · next h => exact spells_ok (getFields_ok h)

/-- A code that stands next is the code of its value. -/
theorem codeBits_append_drop {n : Nat} {bs c rest : Bits} (h : takeBits n bs = .ok (c, rest)) :
    bs = codeBits n (BitVec.ofNat n (codeValue c)).toNat ++ bs.drop n := by
  obtain ⟨hn, rfl, -⟩ := takeBits_ok h
  have hlen : (bs.take n).length = n := List.length_take_of_le hn
  have hlt := codeValue_lt (bs.take n)
  have hcode := codeBits_codeValue (bs.take n)
  rw [hlen] at hlt hcode
  rw [BitVec.toNat_ofNat, Nat.mod_eq_of_lt hlt, hcode, List.take_append_drop]

theorem decodeFixedLitLen_spells (bs : Bits) : Spells bs (decodeFixedLitLen bs) := by
  unfold decodeFixedLitLen
  split
  · exact spells_error _ _
  next h7 =>
  split
  · exact spells_ok (codeBits_append_drop h7)
  split
  · exact spells_error _ _
  next h8 =>
  split
  · exact spells_ok (codeBits_append_drop h8)
  split
  · exact spells_ok (codeBits_append_drop h8)
  split
  · exact spells_error _ _
  next h9 => exact spells_ok (codeBits_append_drop h9)

theorem decodeFixedDist_spells (bs : Bits) : Spells bs (decodeFixedDist bs) := by
  unfold decodeFixedDist
  split
  · exact spells_error _ _
  next h =>
  obtain ⟨-, -, rfl⟩ := takeBits_ok h
  exact spells_ok (codeBits_append_drop h)

/-- A byte sequence has a value below `256^n`, `n` its length (R8). -/
theorem be_lt (s : List Byte) : be s < 256 ^ s.length := by
  induction s using List.reverseRecOn with
  | nil => simp
  | append_singleton s b ih =>
    have := b.isLt
    rw [be_append_singleton, List.length_append, List.length_singleton, pow_succ]
    omega

theorem decodeTrailer_spells (bs : Bits) : Spells bs (decodeTrailer bs) := by
  unfold decodeTrailer
  split
  · exact spells_error _ _
  next s rest h =>
  have hlen := getFields_length h
  have hlt : be s < 2 ^ 32 := by simpa [hlen] using be_lt s
  have hser := serBe_be s
  rw [hlen] at hser
  apply spells_ok
  rw [encode, BitVec.toNat_ofNat, Nat.mod_eq_of_lt hlt, hser]
  exact getFields_ok h

/-- Whatever the decoder of a format reads is spelled by its encoding. -/
theorem decode_spells (f : Format) (bs : Bits) : Spells bs (decode f bs) := by
  cases f with
  | cmdWord =>
    simp only [decode]
    split
    · exact spells_error _ _
    · next h => exact spells_ok (by rw [decodeCommand_encode, ← getField_ok h])
  | zlibHeader => exact decodeHeader_spells bs
  | blockHeader => exact decodeBlockHeader_spells bs
  | storedBody => exact decodeStoredBody_spells bs
  | dynCounts => exact decodeDynCounts_spells bs
  | dynClLens ncl => exact decodeDynClLens_spells ncl bs
  | clSymbol =>
    simp only [decode]
    split
    · exact spells_error _ _
    · next h => exact getField_ok h ▸ decodeClSymbol_spells _ _
  | fixedLitLen => exact decodeFixedLitLen_spells bs
  | fixedDist => exact decodeFixedDist_spells bs
  | litLenSymbol =>
    simp only [decode]
    split
    · exact spells_error _ _
    · next h => exact getField_ok h ▸ decodeLitLenSymbol_spells _ _
  | distSymbol =>
    simp only [decode]
    split
    · exact spells_error _ _
    · next h => exact getField_ok h ▸ decodeDistSymbol_spells _ _
  | zlibTrailer => exact decodeTrailer_spells bs
  | filterByte =>
    simp only [decode]
    split
    · exact spells_error _ _
    · next h => exact spells_ok (by rw [decodeFilterByte_encode, ← getField_ok h])

/-- Settles O54: the format by `decode_reads`, the bits by `decode_spells`. -/
theorem encodeOfDecodeIsTheBits : Obligations.EncodeOfDecodeIsTheBits :=
  fun f bs rest i h => ⟨decode_reads f bs i rest h, decode_spells f bs i rest h⟩

/-- Settles O55, by evaluating each decoder on the bits of the table's row. -/
theorem wordsDecodeAsTheTablesSay : Obligations.WordsDecodeAsTheTablesSay := by
  refine ⟨?_, ?_, ?_, ?_, ?_, ?_, ?_, ?_⟩ <;> decide

end Sys2Proof.Machine
end

section
/-! PROOF. The bits the decoder is given are those of the source region in stream order (30_encoding.md R93, 43_inflate.md R171,
R172). -/

namespace Sys2Proof.Machine

@[simp] theorem streamBits_cons (b : Byte) (bs : List Byte) : streamBits (b :: bs) = fieldBits 8 b.toNat ++ streamBits bs := rfl

theorem streamBits_append (s t : List Byte) : streamBits (s ++ t) = streamBits s ++ streamBits t := List.flatMap_append

/-- Bit `k` of a byte sequence is bit `k mod 8` of its byte `k div 8` (R93). -/
theorem streamBits_getElem? (bs : List Byte) (k : Nat) :
    (streamBits bs)[k]? = bs[k / 8]?.map fun b => b.getLsbD (k % 8) := by
  induction bs generalizing k with
  | nil => simp [streamBits]
  | cons b bs ih =>
    rw [streamBits_cons]
    by_cases hk : k < 8
    · rw [List.getElem?_append_left (by rw [fieldBits_length]; exact hk), fieldBits_getElem?, if_pos hk,
        Nat.div_eq_of_lt hk, Nat.mod_eq_of_lt hk]
      rfl
    · rw [List.getElem?_append_right (by rw [fieldBits_length]; omega), fieldBits_length, ih,
        show k / 8 = (k - 8) / 8 + 1 by omega, show (k - 8) % 8 = k % 8 by omega, List.getElem?_cons_succ]

theorem State.memRead_getElem? (s : State) (a n i : Nat) :
    (s.memRead a n)[i]? = if i < n then some (s.byteAt (a + i)) else none := by
  by_cases hi : i < n
  · have hlen : i < (s.memRead a n).length := by rw [State.memRead_length]; exact hi
    rw [List.getElem?_eq_getElem hlen, State.memRead_getElem, if_pos hi]
  · rw [List.getElem?_eq_none (by rw [State.memRead_length]; omega), if_neg hi]

/-- Settles O28: the byte of bit `k` is among the nine the window reads. -/
theorem sourceBitsStandInStreamOrder : Obligations.SourceBitsStandInStreamOrder := by
  intro s ipos k hk
  have hbyte : (ipos % 8 + k) / 8 < min 9 (s.slen.toNat - ipos / 8) ↔ ipos + k < 8 * s.slen.toNat := by omega
  have haddr : s.src.toNat + ipos / 8 + (ipos % 8 + k) / 8 = s.src.toNat + (ipos + k) / 8 := by omega
  have hbit : (ipos % 8 + k) % 8 = (ipos + k) % 8 := by omega
  rw [State.window, windowBits, List.getElem?_take_of_lt hk, List.getElem?_drop, streamBits_getElem?, State.memRead_getElem?,
    haddr, hbit]
  simp only [hbyte]
  split <;> rfl

end Sys2Proof.Machine
end

section
/-! PROOF. The elements of a zlib stream outside compressed data (43_inflate.md R176 to R185): from the stream, and what each
does to the INFLATE in flight. An element is `inflating s k`, so what it does is read off `k` at the working state. -/

namespace Sys2Proof.Machine

section
variable {s : State} {w w' : Infl} {i : Instr} {k : Infl → Except Err Infl} {e : Err}

/-- An element whose operation fails raises its error (R209). -/
theorem State.Inflating.raises (h : s.Inflating w) (hi : exec i s = inflating s k) (hk : k w = .error e) :
    s.RaisesInData i s.dstRegion e := by
  obtain ⟨-, -, -, hstatus⟩ := id h
  exact ⟨_, by rw [hi, inflating_eq s w k h, hk, State.afterElement_error], s.raiseData_spec _ e hstatus⟩

/-- An element whose operation succeeds leaves the working state it answers, and nothing else changes. -/
theorem State.Inflating.exec_eq (h : s.Inflating w) (hi : exec i s = inflating s k) (hk : k w = .ok w') :
    exec i s = .next (s.withInfl w') := by
  rw [hi, inflating_eq s w k h, hk, State.afterElement_ok]

end

/-! ## The zlib header -/

theorem fieldBits_one (v : Nat) : fieldBits 1 v = [v.testBit 0] := by
  simp [fieldBits, Nat.testBit_zero, beq_eq_decide]

theorem fieldBits_extractLsb' {n : Nat} (v : BitVec n) (lo len : Nat) :
    fieldBits len (v.extractLsb' lo len).toNat = fieldBits len (v.toNat / 2 ^ lo) := by
  rw [BitVec.extractLsb'_toNat, Nat.shiftRight_eq_div_pow, fieldBits_mod]

/-- `CMF` and `FLG` as bytes are the header's fields (R92). -/
theorem streamBits_header {cmf flg : Byte} (h : cmf.toNat % 16 = 8) :
    streamBits [cmf, flg] =
      encode (.zlibHeader (cmf.extractLsb' 4 4) (flg.extractLsb' 6 2) (flg.getLsbD 5) (flg.extractLsb' 0 5)) := by
  have hcm : fieldBits 4 cmf.toNat = fieldBits 4 8 := by rw [← fieldBits_mod, show cmf.toNat % 2 ^ 4 = 8 from h]
  have hcmf : fieldBits 8 cmf.toNat = fieldBits 4 8 ++ fieldBits 4 (cmf.toNat / 2 ^ 4) := by
    rw [fieldBits_add 4 4, hcm]
  have hflg : fieldBits 8 flg.toNat = fieldBits 5 flg.toNat ++ [flg.getLsbD 5] ++ fieldBits 2 (flg.toNat / 2 ^ 6) := by
    have hfdict : fieldBits 1 (flg.toNat / 2 ^ 5) = [flg.getLsbD 5] := by
      rw [fieldBits_one, ← Nat.shiftRight_eq_div_pow, Nat.testBit_shiftRight]; rfl
    rw [fieldBits_add 5 3, fieldBits_add 1 2, hfdict, Nat.div_div_eq_div_mul, ← pow_add, List.append_assoc]
  rw [streamBits_cons, streamBits_cons, hcmf, hflg, encode]
  simp only [fieldBits_extractLsb', pow_zero, Nat.div_one]
  simp [streamBits]

theorem headerValue_eq (cinfo : BitVec 4) (flevel : BitVec 2) (fdict : Bool) (fcheck : BitVec 5) :
    headerValue cinfo flevel fdict fcheck =
      (16 * cinfo.toNat + 8) * 256 + (64 * flevel.toNat + 32 * fdict.toNat + fcheck.toNat) := by
  unfold headerValue
  omega

/-- Settles O30: the bits by `streamBits_header`, the judgement by the checks of `execZlibHeader` in their order. -/
theorem zlibHeaderIsJudged : Obligations.ZlibHeaderIsJudged := by
  refine ⟨fun bs => decodeHeader_truncated, fun bs hlen hcm => ?_, fun cmf flg rest hcm => ?_, rfl, rfl,
    fun s w cinfo flevel fdict fcheck h => ?_⟩
  · obtain ⟨cm, cinfo, fcheck, fdict, flevel, rest, rfl, h4, hcinfo, hfcheck, hflevel⟩ := header_fields hlen
    have htake : (cm ++ cinfo ++ fcheck ++ [fdict] ++ flevel ++ rest).take 4 = cm := by
      simp only [List.append_assoc]
      exact List.take_left' h4
    rw [htake] at hcm
    exact (decodeHeader_fields fdict rest h4 hcinfo hfcheck hflevel).trans (if_pos hcm)
  · rw [streamBits_header hcm]
    exact decode_zlibHeader_encode _ _ _ _ rest
  · simp only [← headerValue_eq]
    refine ⟨fun hbad => ?_, fun hcinfo hcheck hdict => ?_, fun hcinfo hcheck hdict => ?_⟩
    · exact h.raises rfl (if_pos hbad)
    · exact h.raises rfl (by rw [if_neg (by omega), if_pos hdict])
    · exact h.exec_eq rfl (by rw [if_neg (by omega), if_neg (by simp [hdict])])

/-! ## Block headers -/

/-- Settles O31: the bits by evaluation, the meanings from their definitions. -/
theorem blockHeadersSelectTheirBody : Obligations.BlockHeadersSelectTheirBody := by
  refine ⟨fun _ _ => ⟨rfl, rfl, rfl, rfl⟩, fun bs hlen => ?_, fun s w final h => ⟨?_, ?_, ?_, ?_⟩⟩
  · match bs, hlen with
    | [], _ | [_], _ | [_, _], _ => rfl
  · exact h.exec_eq rfl rfl
  · exact h.exec_eq rfl rfl
  · exact h.exec_eq rfl rfl
  · exact h.raises rfl rfl

/-! ## Growing output -/

@[simp] theorem Infl.grownTo_out (w : Infl) (out : List Byte) : (w.grownTo out).out = out := List.reverse_reverse out

/-- The bookkeeping of the output is right after it has grown. -/
theorem Infl.grownTo_counted (w : Infl) (out : List Byte) : (w.grownTo out).Counted :=
  ⟨(List.length_reverse (as := out)).symm, by rw [Infl.grownTo_out]; rfl⟩

theorem Infl.Counted.grownTo_out_self {w : Infl} (h : w.Counted) : w.grownTo w.out = w := by
  obtain ⟨hcount, hsums⟩ := h
  unfold Infl.grownTo
  rw [← hsums, Infl.out, List.reverse_reverse, List.length_reverse, ← hcount]

theorem Infl.Counted.length_out {w : Infl} (h : w.Counted) : w.out.length = w.count := by
  rw [h.1, Infl.out, List.length_reverse]

/-- A byte that fits the capacity is appended to the output (R204). -/
theorem Infl.Counted.emit_eq {w : Infl} {cap : Nat} (h : w.Counted) (b : Byte) (hcap : w.count + 1 ≤ cap) :
    w.emit cap b = .ok (w.grownTo (w.out ++ [b])) := by
  rw [Infl.emit_eq cap w b hcap]
  unfold Infl.grownTo
  rw [adlerSums_append, ← h.2]
  simp [Infl.out, h.1]

/-- A byte that does not fit is `E_DCAP` (R204). -/
theorem Infl.emit_dcap {w : Infl} {cap : Nat} (b : Byte) (hcap : cap < w.count + 1) : w.emit cap b = .error .dcap :=
  if_pos hcap

/-! ## Stored blocks -/

/-- Two bytes, the low one first, are a field of 16 bits (R95). -/
theorem fieldBits_append_bytes (hi lo : Byte) :
    fieldBits 16 (hi ++ lo).toNat = fieldBits 8 lo.toNat ++ fieldBits 8 hi.toNat := by
  have hlo := lo.isLt
  have happend : (hi ++ lo).toNat = hi.toNat * 2 ^ 8 + lo.toNat := by
    rw [BitVec.toNat_append, ← Nat.shiftLeft_add_eq_or_of_lt hlo, Nat.shiftLeft_eq]
  rw [happend, fieldBits_add 8 8, ← fieldBits_mod 8, show (hi.toNat * 2 ^ 8 + lo.toNat) % 2 ^ 8 = lo.toNat by omega,
    show (hi.toNat * 2 ^ 8 + lo.toNat) / 2 ^ 8 = hi.toNat by omega]

/-- The working state after one stored byte: read at the cursor and emitted (R180). -/
def Infl.afterStoredByte (s : State) (w : Infl) : Infl :=
  { w.grownTo (w.out ++ [s.byteAt (s.src.toNat + w.ipos / 8)]) with ipos := w.ipos + 8 }

theorem Infl.afterStoredByte_counted (s : State) (w : Infl) : (w.afterStoredByte s).Counted := w.grownTo_counted _

theorem Infl.Counted.afterStoredByte_count {w : Infl} (h : w.Counted) (s : State) :
    (w.afterStoredByte s).count = w.count + 1 := by
  show (w.out ++ _).length = _
  rw [List.length_append, h.length_out, List.length_singleton]

theorem copyStored_succ {s : State} {w : Infl} (h : w.Counted) (n : Nat) (hthere : w.ipos + 8 ≤ 8 * s.slen.toNat)
    (hroom : w.count + 1 ≤ s.dcap.toNat) : copyStored s (n + 1) w = copyStored s n (w.afterStoredByte s) := by
  rw [copyStored, if_neg (by omega), h.emit_eq _ hroom]
  rfl

/-- All the bytes are there and fit (R180). -/
theorem copyStored_ok {s : State} (n : Nat) : ∀ {w : Infl}, w.Counted → 8 * n ≤ 8 * s.slen.toNat - w.ipos →
    w.count + n ≤ s.dcap.toNat →
      copyStored s n w = .ok { w.grownTo (w.out ++ s.memRead (s.src.toNat + w.ipos / 8) n) with ipos := w.ipos + 8 * n } := by
  induction n with
  | zero =>
    intro w h _ _
    rw [copyStored, State.memRead, List.append_nil, h.grownTo_out_self]
    rfl
  | succ n ih =>
    intro w h hthere hroom
    have hcount := h.afterStoredByte_count s
    have hipos : (w.afterStoredByte s).ipos = w.ipos + 8 := rfl
    have haddr : s.src.toNat + w.ipos / 8 + 1 = s.src.toNat + (w.ipos + 8) / 8 := by omega
    rw [copyStored_succ h n (by omega) (by omega), ih (w.afterStoredByte_counted s) (by omega) (by omega), hipos,
      State.memRead, haddr, show w.ipos + 8 * (n + 1) = w.ipos + 8 + 8 * n by omega]
    simp [Infl.afterStoredByte, Infl.grownTo, Infl.out]

/-- A byte is missing, and those before it fit: `E_TRUNC` (R180). -/
theorem copyStored_trunc {s : State} (n : Nat) : ∀ {w : Infl}, w.Counted → 8 * s.slen.toNat - w.ipos < 8 * n →
    (8 * s.slen.toNat - w.ipos) / 8 ≤ s.dcap.toNat - w.count → copyStored s n w = .error .trunc := by
  induction n with
  | zero => intro w _ hthere; omega
  | succ n ih =>
    intro w h hthere hroom
    by_cases hmissing : 8 * s.slen.toNat < w.ipos + 8
    · rw [copyStored, if_pos hmissing]
    · have hcount := h.afterStoredByte_count s
      have hipos : (w.afterStoredByte s).ipos = w.ipos + 8 := rfl
      rw [copyStored_succ h n (by omega) (by omega)]
      exact ih (w.afterStoredByte_counted s) (by omega) (by omega)

/-- A byte does not fit, and is there with those before it: `E_DCAP` (R180, R204). -/
theorem copyStored_dcap {s : State} (n : Nat) : ∀ {w : Infl}, w.Counted → w.count ≤ s.dcap.toNat →
    s.dcap.toNat - w.count < n → s.dcap.toNat - w.count < (8 * s.slen.toNat - w.ipos) / 8 →
      copyStored s n w = .error .dcap := by
  induction n with
  | zero => intro w _ _ hroom; omega
  | succ n ih =>
    intro w h hcap hroom hthere
    by_cases hfull : s.dcap.toNat < w.count + 1
    · rw [copyStored, if_neg (by omega), Infl.emit_dcap _ hfull]
    · have hcount := h.afterStoredByte_count s
      have hipos : (w.afterStoredByte s).ipos = w.ipos + 8 := rfl
      rw [copyStored_succ h n (by omega) (by omega)]
      exact ih (w.afterStoredByte_counted s) (by omega) (by omega) (by omega)

/-- A stored block whose bytes are there and fit (R180): the output grows by them and the block ends (R178). -/
theorem exec_storedLen_ok {s : State} {w : Infl} {len nlen : BitVec 16} (h : s.Inflating w) (hw : w.Counted)
    (hnlen : nlen = len ^^^ 0xFFFF#16) (hthere : 8 * len.toNat ≤ 8 * s.slen.toNat - w.ipos)
    (hroom : w.count + len.toNat ≤ s.dcap.toNat) :
    exec (.storedLen len nlen) s =
      .next (s.withInfl { w.grownTo (w.out ++ s.memRead (s.src.toNat + w.ipos / 8) len.toNat) with
        ipos := w.ipos + 8 * len.toNat
        phase := if w.final then .trailer else .block }) :=
  h.exec_eq rfl (by rw [if_neg (not_not.2 hnlen), copyStored_ok _ hw hthere hroom]; rfl)

theorem decodeStoredBody_truncated {bs : Bits} (h : bs.length < 32) : decodeStoredBody bs = .error .truncated := by
  by_cases hlen : 16 ≤ bs.length
  · have hrest : (bs.drop 16).length < 16 := by rw [List.length_drop]; omega
    simp [decodeStoredBody, getField_eq hlen, getField_truncated hrest]
  · simp [decodeStoredBody, getField_truncated (n := 16) (bs := bs) (by omega)]

/-- Settles O32: each clause by the lemma about `copyStored` for the byte that decides. -/
theorem storedBlocksCopyTheirBytes : Obligations.StoredBlocksCopyTheirBytes := by
  refine ⟨fun b0 b1 b2 b3 rest => ?_, fun bs => decodeStoredBody_truncated, fun s w len nlen h hw hcap => ?_⟩
  · have hbits : streamBits [b0, b1, b2, b3] = encode (.storedLen (b1 ++ b0) (b3 ++ b2)) := by
      simp [encode, fieldBits_append_bytes, streamBits]
    rw [hbits]
    exact decodeOfEncodeIsTheInstruction (.storedLen (b1 ++ b0) (b3 ++ b2)) rest rfl
  · refine ⟨fun hbad => h.raises rfl (if_pos hbad), fun hnlen => ⟨fun hthere hroom => ?_, fun hroom hthere => ?_,
      fun hthere hroom => exec_storedLen_ok h hw hnlen (by omega) (by omega)⟩⟩
    · exact h.raises rfl (by rw [if_neg (not_not.2 hnlen), copyStored_trunc _ hw (by omega) hroom])
    · exact h.raises rfl (by rw [if_neg (not_not.2 hnlen), copyStored_dcap _ hw hcap hroom hthere])

/-! ## Dynamic headers -/

theorem decodeDynCounts_eq {bs : Bits} (h : 14 ≤ bs.length) :
    decodeDynCounts bs =
      .ok (.dynCounts (BitVec.ofNat 5 (fieldValue (bs.take 5))) (BitVec.ofNat 5 (fieldValue ((bs.drop 5).take 5)))
        (BitVec.ofNat 4 (fieldValue ((bs.drop 10).take 4))), bs.drop 14) := by
  have h1 : 5 ≤ bs.length := by omega
  have h2 : 5 ≤ (bs.drop 5).length := by rw [List.length_drop]; omega
  have h3 : 4 ≤ (bs.drop 10).length := by rw [List.length_drop]; omega
  simp [decodeDynCounts, getField_eq h1, getField_eq h2, getField_eq h3, List.drop_drop]

theorem decodeDynCounts_truncated {bs : Bits} (h : bs.length < 14) : decodeDynCounts bs = .error .truncated := by
  by_cases h1 : 5 ≤ bs.length
  · by_cases h2 : 5 ≤ (bs.drop 5).length
    · have h3 : (bs.drop 10).length < 4 := by rw [List.length_drop]; omega
      simp [decodeDynCounts, getField_eq h1, getField_eq h2, getField_truncated h3, List.drop_drop]
    · simp [decodeDynCounts, getField_eq h1, getField_truncated (Nat.lt_of_not_le h2)]
  · simp [decodeDynCounts, getField_truncated (Nat.lt_of_not_le h1)]

/-- Settles O34: the three fields by `decodeDynCounts_eq`, the limits from `execDynCounts`. -/
theorem dynamicCountsAreJudged : Obligations.DynamicCountsAreJudged := by
  refine ⟨fun bs => decodeDynCounts_eq, fun bs => decodeDynCounts_truncated, fun s w hlit hdist hclen h =>
    ⟨fun hbad => h.raises rfl (if_pos hbad), fun hlitok hdistok => h.exec_eq rfl (if_neg (by omega))⟩⟩

theorem placeLens_length (os vs cl : List Nat) : (placeLens os vs cl).length = cl.length := by
  fun_induction placeLens os vs cl with
  | case1 => rfl
  | case2 => rfl
  | case3 o os v vs cl ih => rw [ih, List.length_set]

/-- An entry that the order does not name stays. -/
theorem placeLens_getD_of_not_mem (os vs cl : List Nat) (k : Nat) (hk : k ∉ os) :
    (placeLens os vs cl).getD k 0 = cl.getD k 0 := by
  fun_induction placeLens os vs cl with
  | case1 => rfl
  | case2 => rfl
  | case3 o os v vs cl ih =>
    obtain ⟨hne, hnot⟩ : k ≠ o ∧ k ∉ os := by simpa using hk
    rw [ih hnot]
    simp [List.getD_eq_getElem?_getD, Ne.symm hne]

/-- `cl[ORDER[k]] <- field k` (R183), in a list of zeros: a field that is not there is 0. -/
theorem placeLens_getD (os vs cl : List Nat) (hnodup : os.Nodup) (hmem : ∀ o ∈ os, o < cl.length)
    (hzero : ∀ o ∈ os, cl.getD o 0 = 0) (k : Nat) (hk : k < os.length) :
    (placeLens os vs cl).getD (os.getD k 0) 0 = vs.getD k 0 := by
  fun_induction placeLens os vs cl generalizing k with
  | case1 => simpa [List.getD_eq_getElem?_getD, List.getElem?_eq_getElem hk] using hzero _ (List.getElem_mem hk)
  | case2 => simp at hk
  | case3 o os v vs cl ih =>
    obtain ⟨hnot, hnodup'⟩ := List.nodup_cons.1 hnodup
    cases k with
    | zero =>
      have ho : o < cl.length := hmem o List.mem_cons_self
      rw [List.getD_cons_zero, List.getD_cons_zero, placeLens_getD_of_not_mem _ _ _ _ hnot]
      simp [List.getD_eq_getElem?_getD, ho]
    | succ k =>
      rw [List.getD_cons_succ, List.getD_cons_succ]
      refine ih hnodup' (fun o' ho' => ?_) (fun o' ho' => ?_) k (by simpa using hk)
      · rw [List.length_set]
        exact hmem o' (List.mem_cons_of_mem o ho')
      · have hne : o ≠ o' := fun heq => hnot (heq ▸ ho')
        simpa [List.getD_eq_getElem?_getD, List.getElem?_set, hne] using hzero o' (List.mem_cons_of_mem o ho')

/-- Field `k` is the length of symbol `ORDER[k]` (R183). -/
theorem clLengths_getD (fields : List Nat) (k : Nat) (hk : k < 19) :
    (clLengths fields).getD (clOrder.getD k 0) 0 = fields.getD k 0 :=
  placeLens_getD _ _ _ (by decide) (by decide) (by decide) k hk

/-- Settles O35: the fields by `getFields_eq`, their places by `clLengths_getD`. -/
theorem codeLengthCodeMustBeComplete : Obligations.CodeLengthCodeMustBeComplete := by
  refine ⟨fun n bs => ⟨fun hlen => ?_, fun hlen => ?_⟩, fun s w fields h _ _ => ?_⟩
  · obtain ⟨fields, hread, hfields⟩ := getFields_eq hlen
    exact ⟨fields, by simp [decode, decodeDynClLens, hread], hfields⟩
  · simp [decode, decodeDynClLens, getFields_truncated hlen]
  · refine ⟨clLengths (fields.map (·.toNat)), placeLens_length _ _ _, fun k hk => ?_, fun hkraft => ?_, fun hkraft => ?_⟩
    · refine (clLengths_getD _ k hk).trans ?_
      simp only [List.getD_eq_getElem?_getD, List.getElem?_map]
      cases fields[k]? <;> rfl
    · exact h.raises rfl (if_pos hkraft)
    · exact h.exec_eq rfl (if_neg (not_not.2 hkraft))

section
variable {w : Infl} {n v : Nat}

theorem Infl.addLengths_overrun (h : w.nlen + w.ndist < (w.lens ++ List.replicate n v).length) :
    w.addLengths n v = .error .codelen :=
  if_pos h

theorem Infl.addLengths_more (h : (w.lens ++ List.replicate n v).length < w.nlen + w.ndist) :
    w.addLengths n v = .ok { w with lens := w.lens ++ List.replicate n v } := by
  unfold Infl.addLengths
  simp only
  rw [if_neg (by omega), if_neg (by omega)]

theorem Infl.addLengths_last (h : (w.lens ++ List.replicate n v).length = w.nlen + w.ndist) :
    w.addLengths n v = Infl.finishLengths { w with lens := w.lens ++ List.replicate n v } := by
  unfold Infl.addLengths
  simp only
  rw [if_neg (by omega), if_pos h]

/-- The two sets are built if both are legal and symbol 256 has a code (R185, R104). -/
theorem Infl.finishLengths_allowed (h : SetsAllowed w.lens w.nlen) :
    w.finishLengths = .ok { w with
      ll := buildCodes (w.lens.take w.nlen), dd := buildCodes (w.lens.drop w.nlen), phase := .litLenCode } := by
  obtain ⟨hend, hll, hdd⟩ := h
  have hll' := (acceptableSet_iff (w.lens.take w.nlen) false).2 (by simpa using hll)
  have hdd' := (acceptableSet_iff (w.lens.drop w.nlen) true).2 (by simpa using hdd)
  simp only [Infl.finishLengths, if_neg hend, hll', hdd', Bool.not_true, Bool.false_eq_true, if_false]

theorem Infl.finishLengths_not_allowed (h : ¬ SetsAllowed w.lens w.nlen) : w.finishLengths = .error .codelen := by
  unfold Infl.finishLengths
  split
  · rfl
  next hend =>
  split
  · rfl
  next hll =>
  split
  · rfl
  next hdd =>
  simp only [Bool.not_eq_true', Bool.not_eq_false, acceptableSet_iff, Bool.false_eq_true] at hll hdd
  exact absurd ⟨hend, hll, by simpa using hdd⟩ h

/-- A code-length symbol that means `n` copies of the length `v` adds them (R184). -/
theorem State.Inflating.addsLengths {s : State} {i : Instr} {k : Infl → Except Err Infl} (h : s.Inflating w)
    (hi : exec i s = inflating s k) (hk : k w = w.addLengths n v) : s.AddsLengths i w n v := by
  refine ⟨fun hover => h.raises hi (hk.trans (Infl.addLengths_overrun hover)),
    fun hmore => h.exec_eq hi (hk.trans (Infl.addLengths_more hmore)), fun hlast hsets => ?_, fun hlast hsets => ?_⟩
  · exact h.exec_eq hi (by rw [hk, Infl.addLengths_last hlast, Infl.finishLengths_allowed hsets])
  · exact h.raises hi (by rw [hk, Infl.addLengths_last hlast, Infl.finishLengths_not_allowed hsets])

end

/-- Settles O36: from the stream by `withExtra_eq`, what they add by `State.Inflating.addsLengths`. -/
theorem codeLengthSymbolsAddTheirLengths : Obligations.CodeLengthSymbolsAddTheirLengths := by
  refine ⟨fun bs => ⟨fun l => decodeClSymbol_len l bs, fun h => withExtra_eq _ h, fun h => withExtra_eq _ h,
    fun h => withExtra_eq _ h, fun h => withExtra_truncated _ h, fun h => withExtra_truncated _ h,
    fun h => withExtra_truncated _ h⟩, fun s w h => ⟨fun l => ?_, fun e hnone => ?_, fun e v hlast => ?_, fun e => ?_,
    fun e => ?_⟩⟩
  · exact h.addsLengths rfl rfl
  · exact h.raises rfl (by simp [hnone])
  · exact h.addsLengths rfl (by simp [hlast])
  · exact h.addsLengths rfl rfl
  · exact h.addsLengths rfl rfl

end Sys2Proof.Machine
end

section
/-! PROOF. The symbols of compressed data (43_inflate.md R190 to R203): the fixed codes, the lengths, and the distances with
their copy; and the filter-type bytes (30_encoding.md R110). -/

namespace Sys2Proof.Machine

/-! ## Fixed codes -/

theorem namesSymbol_of_exec {i : Instr} {sym : Nat} (hi : ∀ s, exec i s = fixedSymbol sym s) : Instr.NamesSymbol i sym :=
  fun s _ h => h.exec_eq (hi s) rfl

theorem namesDistance_fixedDist (c : BitVec 5) : Instr.NamesDistance (.fixedDist0To31 c) c.toNat :=
  fun _ _ h => h.exec_eq rfl rfl

/-- Settles O40: each code names the symbol of its meaning. -/
theorem fixedCodesNameTheirSymbols : Obligations.FixedCodesNameTheirSymbols :=
  ⟨fun _ _ _ => namesSymbol_of_exec fun _ => rfl, fun _ _ => namesSymbol_of_exec fun _ => rfl,
    fun _ _ => namesSymbol_of_exec fun _ => rfl, fun _ _ _ => namesSymbol_of_exec fun _ => rfl, namesDistance_fixedDist⟩

/-! ## Symbols with an extra field -/

/-- A symbol whose meaning is `meaning (base + e)` for its extra field `e`, from the stream (R100, R101). -/
theorem withExtra_exec {n base : Nat} {mk : BitVec n → Instr} {meaning : Nat → State → Result} {bs : Bits}
    (h : n ≤ bs.length) (hmk : ∀ e s, exec (mk e) s = meaning (base + e.toNat) s) :
    ∃ i, withExtra n mk bs = .ok (i, bs.drop n) ∧ ∀ s, exec i s = meaning (base + fieldValue (bs.take n)) s :=
  ⟨_, withExtra_eq mk h, fun s => by rw [hmk, toNat_ofNat_fieldValue_take h]⟩

/-- Length symbols from the stream (R100, R193). -/
theorem decodeLitLenSymbol_exec {sym : Nat} {bs : Bits} (hlow : 257 ≤ sym) (hhigh : sym ≤ 285)
    (hbits : lengthExtra.getD (sym - 257) 0 ≤ bs.length) :
    ∃ i, decodeLitLenSymbol sym bs = .ok (i, bs.drop (lengthExtra.getD (sym - 257) 0))
      ∧ ∀ s, exec i s =
          lengthSymbol (lengthBase.getD (sym - 257) 0 + fieldValue (bs.take (lengthExtra.getD (sym - 257) 0))) s := by
  interval_cases sym
  all_goals first
    | exact ⟨_, rfl, fun _ => rfl⟩
    | exact withExtra_exec hbits fun _ _ => rfl

theorem setsLength_of_exec {i : Instr} {n : Nat} (hi : ∀ s, exec i s = lengthSymbol n s) : Instr.SetsLength i n :=
  fun s _ h => h.exec_eq (hi s) rfl

theorem decodeLitLenSymbol_setsLength {sym : Nat} {bs : Bits} (hlow : 257 ≤ sym) (hhigh : sym ≤ 285)
    (hbits : lengthExtra.getD (sym - 257) 0 ≤ bs.length) :
    ∃ i, decodeLitLenSymbol sym bs = .ok (i, bs.drop (lengthExtra.getD (sym - 257) 0))
      ∧ Instr.SetsLength i (lengthBase.getD (sym - 257) 0 + fieldValue (bs.take (lengthExtra.getD (sym - 257) 0))) := by
  obtain ⟨i, hread, hexec⟩ := decodeLitLenSymbol_exec hlow hhigh hbits
  exact ⟨i, hread, setsLength_of_exec hexec⟩

/-- Settles O43: each element is `lengthSymbol` of its length, from the stream by `decodeLitLenSymbol_setsLength`. -/
theorem lengthSymbolsSetTheirLength : Obligations.LengthSymbolsSetTheirLength := by
  unfold Obligations.LengthSymbolsSetTheirLength
  and_intros
  all_goals first
    | exact setsLength_of_exec fun _ => rfl
    | exact fun _ => setsLength_of_exec fun _ => rfl
    | exact fun _ _ => decodeLitLenSymbol_setsLength

/-! ## The copy -/

/-- The byte `dist` positions before the end of the output, as the working state finds it (R203). -/
theorem Infl.hist_getD (w : Infl) {dist : Nat} (hpos : 0 < dist) (hdist : dist ≤ w.out.length) :
    w.hist.getD (dist - 1) 0#8 = w.out.getD (w.out.length - dist) 0#8 := by
  have hlen : w.out.length = w.hist.length := List.length_reverse
  rw [hlen] at hdist ⊢
  rw [List.getD_eq_getElem?_getD, List.getD_eq_getElem?_getD, Infl.out, List.getElem?_reverse (by omega)]
  congr 2
  omega

/-- The working state after one byte of a copy (R203). -/
def Infl.afterCopiedByte (w : Infl) (dist : Nat) : Infl :=
  w.grownTo (w.out ++ [w.out.getD (w.out.length - dist) 0#8])

theorem Infl.Counted.afterCopiedByte_count {w : Infl} (h : w.Counted) (dist : Nat) :
    (w.afterCopiedByte dist).count = w.count + 1 := by
  show (w.out ++ _).length = _
  rw [List.length_append, h.length_out, List.length_singleton]

theorem copyBack_succ {w : Infl} {cap dist : Nat} (h : w.Counted) (n : Nat) (hpos : 0 < dist) (hdist : dist ≤ w.count)
    (hroom : w.count + 1 ≤ cap) : copyBack cap dist (n + 1) w = copyBack cap dist n (w.afterCopiedByte dist) := by
  rw [copyBack, w.hist_getD hpos (by rw [h.length_out]; exact hdist), h.emit_eq _ hroom]
  rfl

/-- A copy that fits is the copy of R203 on the output. -/
theorem copyBack_ok {cap dist : Nat} (hpos : 0 < dist) (n : Nat) : ∀ {w : Infl}, w.Counted → dist ≤ w.count →
    w.count + n ≤ cap → copyBack cap dist n w = .ok (w.grownTo (lzCopy w.out dist n)) := by
  induction n with
  | zero => intro w h _ _; rw [copyBack, lzCopy, h.grownTo_out_self]
  | succ n ih =>
    intro w h hdist hroom
    have hcount := h.afterCopiedByte_count dist
    rw [copyBack_succ h n hpos hdist (by omega),
      ih (w := w.afterCopiedByte dist) (w.grownTo_counted _) (by omega) (by omega), lzCopy, Infl.afterCopiedByte,
      Infl.grownTo_out]
    rfl

/-- A copy that does not fit is `E_DCAP` (R204). -/
theorem copyBack_dcap {cap dist : Nat} (hpos : 0 < dist) (n : Nat) : ∀ {w : Infl}, w.Counted → dist ≤ w.count →
    w.count ≤ cap → cap < w.count + n → copyBack cap dist n w = .error .dcap := by
  induction n with
  | zero => intro w _ _ hcap hroom; omega
  | succ n ih =>
    intro w h hdist hcap hroom
    by_cases hfull : cap < w.count + 1
    · rw [copyBack, Infl.emit_dcap _ hfull]
    · have hcount := h.afterCopiedByte_count dist
      rw [copyBack_succ h n hpos hdist (by omega)]
      exact ih (w.grownTo_counted _) (by omega) (by omega) (by omega)

/-- An element that means a distance copies from there (R202 to R204). -/
theorem copiesFrom_of_exec {i : Instr} {dist : Nat} (hpos : 0 < dist) (hi : ∀ s, exec i s = distanceSymbol dist s) :
    Instr.CopiesFrom i dist := by
  intro s w h hw hcap
  refine ⟨fun hbeyond => h.raises (hi s) (if_pos hbeyond), fun hdist hroom => ?_, fun hdist hroom => ?_⟩
  · exact h.raises (hi s) (by rw [if_neg (by omega), copyBack_dcap hpos _ hw hdist hcap hroom])
  · exact h.exec_eq (hi s) (by rw [if_neg (by omega), copyBack_ok hpos _ hw hdist hroom])

/-- Distance symbols from the stream (R101, R200). -/
theorem decodeDistSymbol_exec {d : Nat} {bs : Bits} (hd : d ≤ 29) (hbits : distExtra.getD d 0 ≤ bs.length) :
    ∃ i, decodeDistSymbol d bs = .ok (i, bs.drop (distExtra.getD d 0))
      ∧ ∀ s, exec i s = distanceSymbol (distBase.getD d 0 + fieldValue (bs.take (distExtra.getD d 0))) s := by
  interval_cases d
  all_goals first
    | exact ⟨_, rfl, fun _ => rfl⟩
    | exact withExtra_exec hbits fun _ _ => rfl

/-- No distance is 0 (R101). -/
theorem distBase_pos {d : Nat} (hd : d ≤ 29) : 0 < distBase.getD d 0 := by
  revert d
  decide

theorem decodeDistSymbol_copiesFrom {d : Nat} {bs : Bits} (hd : d ≤ 29) (hbits : distExtra.getD d 0 ≤ bs.length) :
    ∃ i, decodeDistSymbol d bs = .ok (i, bs.drop (distExtra.getD d 0))
      ∧ Instr.CopiesFrom i (distBase.getD d 0 + fieldValue (bs.take (distExtra.getD d 0))) := by
  obtain ⟨i, hread, hexec⟩ := decodeDistSymbol_exec hd hbits
  exact ⟨i, hread, copiesFrom_of_exec (Nat.add_pos_left (distBase_pos hd) _) hexec⟩

/-- Settles O44: each element is `distanceSymbol` of its distance, from the stream by `decodeDistSymbol_copiesFrom`. -/
theorem distanceSymbolsCopyFromTheirDistance : Obligations.DistanceSymbolsCopyFromTheirDistance := by
  unfold Obligations.DistanceSymbolsCopyFromTheirDistance
  and_intros
  all_goals first
    | exact copiesFrom_of_exec (by decide) fun _ => rfl
    | exact fun _ => copiesFrom_of_exec (Nat.add_pos_left (by decide) _) fun _ => rfl
    | exact fun _ _ => decodeDistSymbol_copiesFrom

/-! ## Filter-type bytes -/

theorem decodeFilterByte_illegal_iff (b : Byte) : 4 < b.toNat ↔ decodeFilterByte b = .filterIllegal b := by
  refine ⟨decodeFilterByte_illegal, fun h => ?_⟩
  unfold decodeFilterByte at h
  split at h
  case h_6 => simp only [imp_false] at *; omega
  all_goals cases h

/-- Settles O24: the bytes by `decodeFilterByte_illegal_iff`, the error by `raiseData_spec`. -/
theorem illegalFilterBytesRaiseEFilter : Obligations.IllegalFilterBytesRaiseEFilter := by
  refine ⟨rfl, rfl, rfl, rfl, rfl, decodeFilterByte_illegal_iff, fun s f b h => ?_⟩
  obtain ⟨-, -, -, -, hstatus⟩ := id h
  exact ⟨_, defiltering_eq s f _ h, s.raiseData_spec (s.filtDest f) .filter hstatus⟩

end Sys2Proof.Machine
end

section
/-! PROOF. Canonical Huffman codes (30_encoding.md R96) and their decoding (43_inflate.md R174). The codes of length `l` are the
numbers from `firstCode l` on, one for each symbol of that length; a code of a greater length begins with a number past them, so
no code is the beginning of another. -/

namespace Sys2Proof.Machine

/-! ## The codes -/

/-- The sum of `2^(l - k)` over the lengths `k` of shorter codes (R96). -/
def shorterSum (lens : List Nat) (l : Nat) : Nat :=
  ((lens.filter fun k => k ≠ 0 && k < l).map fun k => 2 ^ (l - k)).sum

@[simp] theorem shorterSum_nil (l : Nat) : shorterSum [] l = 0 := rfl

theorem shorterSum_cons (k : Nat) (lens : List Nat) (l : Nat) :
    shorterSum (k :: lens) l = (if k ≠ 0 ∧ k < l then 2 ^ (l - k) else 0) + shorterSum lens l := by
  by_cases h : k ≠ 0 ∧ k < l <;> simp [shorterSum, h]

@[simp] theorem lengthCount_nil (l : Nat) : lengthCount [] l = 0 := by
  simp [lengthCount]

theorem lengthCount_cons (k : Nat) (lens : List Nat) (l : Nat) :
    lengthCount (k :: lens) l = (if k ≠ 0 ∧ k = l then 1 else 0) + lengthCount lens l := by
  unfold lengthCount
  split
  · next h => simp [h]
  · by_cases hk : k = l
    · subst hk; simp [*, Nat.add_comm]
    · simp [hk]

theorem lengthCount_eq (lens : List Nat) {l : Nat} (hl : l ≠ 0) : lengthCount lens l = lens.count l := if_neg hl

theorem shorterSum_succ (lens : List Nat) (l : Nat) :
    shorterSum lens (l + 1) = (shorterSum lens l + lengthCount lens l) * 2 := by
  induction lens with
  | nil => simp
  | cons k lens ih =>
    rw [shorterSum_cons, shorterSum_cons, lengthCount_cons, ih]
    rcases Nat.lt_trichotomy k l with h | rfl | h
    · have hpow : 2 ^ (l + 1 - k) = 2 ^ (l - k) * 2 := by rw [Nat.succ_sub h.le, pow_succ]
      by_cases hk : k = 0
      · simp [hk]
      · simp [hk, h, Nat.lt_succ_of_lt h, h.ne, hpow]; ring
    · by_cases hk : k = 0 <;> simp [hk]; ring
    · simp [Nat.not_lt.2 h.le, Nat.not_lt.2 (Nat.succ_le_of_lt h), h.ne']

/-- The first code of a length, in closed form (R96). -/
theorem firstCode_eq (lens : List Nat) (l : Nat) : firstCode lens l = shorterSum lens l := by
  induction l with
  | zero => simp [firstCode, shorterSum]
  | succ l ih => rw [firstCode, ih, shorterSum_succ]

theorem assignCodes_length (lens next : List Nat) : (assignCodes lens next).length = lens.length := by
  induction lens generalizing next with
  | nil => rfl
  | cons l lens ih =>
    unfold assignCodes
    split <;> rw [List.length_cons, List.length_cons, ih]

/-- The symbols of one length are numbered in ascending order from the table's entry (R96). -/
theorem assignCodes_getD {lens next : List Nat} {sym : Nat} (hsym : sym < lens.length) (hl : lens.getD sym 0 ≠ 0)
    (hnext : lens.getD sym 0 < next.length) :
    (assignCodes lens next).getD sym 0 = next.getD (lens.getD sym 0) 0 + (lens.take sym).count (lens.getD sym 0) := by
  induction lens generalizing next sym with
  | nil => simp at hsym
  | cons l lens ih =>
    cases sym with
    | zero =>
      rw [List.getD_cons_zero] at hl
      simp [assignCodes, hl]
    | succ sym =>
      rw [List.getD_cons_succ] at hl hnext ⊢
      have hsym' : sym < lens.length := by simpa using hsym
      have hrec (next' : List Nat) (hlen : next'.length = next.length) := ih (next := next') hsym' hl (hlen ▸ hnext)
      rw [List.take_succ_cons, List.count_cons]
      generalize lens.getD sym 0 = v at hl hnext hrec ⊢
      unfold assignCodes
      split
      · next hzero =>
        rw [List.getD_cons_succ, hrec next rfl]
        simp [hzero, Ne.symm hl]
      · rw [List.getD_cons_succ, hrec _ (List.length_set ..)]
        by_cases heq : l = v
        · subst heq
          simp [List.getD_eq_getElem?_getD, hnext]
          omega
        · simp [List.getD_eq_getElem?_getD, heq]

/-- The code of a symbol: the first code of its length plus the number of symbols before it of that length. -/
theorem buildCodes_getD {lens : List Nat} {sym : Nat} (hlens : ∀ l ∈ lens, l ≤ 15) (hsym : sym < lens.length)
    (hl : lens.getD sym 0 ≠ 0) :
    (buildCodes lens).codes.getD sym 0 =
      firstCode lens (lens.getD sym 0) + (lens.take sym).count (lens.getD sym 0) := by
  have hmem : lens.getD sym 0 ∈ lens := by
    rw [List.getD_eq_getElem _ _ hsym]
    exact List.getElem_mem hsym
  have hle : lens.getD sym 0 < 16 := Nat.lt_succ_of_le (hlens _ hmem)
  have htable : ((List.range (Config.maxBits + 1)).map (firstCode lens)).getD (lens.getD sym 0) 0 =
      firstCode lens (lens.getD sym 0) := by
    rw [List.getD_eq_getElem _ _ (by simpa [Config.maxBits] using hle)]
    simp
  rw [← htable]
  exact assignCodes_getD hsym hl (by simpa [Config.maxBits] using hle)

/-- Settles O37: `buildCodes_getD` with `firstCode` in closed form. -/
theorem codesAreCanonical : Obligations.CodesAreCanonical := by
  intro lens sym hlens hsym hl
  refine (buildCodes_getD hlens hsym hl).trans ?_
  rw [firstCode_eq]
  rfl

/-! ## No code begins another -/

/-- Symbol `sym` of a set has the code `code` of `l` bits. -/
def HasCode (lens : List Nat) (sym l code : Nat) : Prop :=
  sym < lens.length ∧ lens.getD sym 0 = l ∧ (buildCodes lens).codes.getD sym 0 = code

/-- The symbols of length `l` up to `sym` are among all of that length. -/
theorem count_take_lt {lens : List Nat} {sym n : Nat} (hsym : sym < n) (hn : n ≤ lens.length) :
    (lens.take sym).count (lens.getD sym 0) < (lens.take n).count (lens.getD sym 0) := by
  have hlt : sym < lens.length := by omega
  have hstep : (lens.take (sym + 1)).count (lens.getD sym 0) = (lens.take sym).count (lens.getD sym 0) + 1 := by
    rw [List.take_succ_eq_append_getElem hlt, List.count_append, List.getD_eq_getElem _ _ hlt]
    simp
  have hmono : (lens.take (sym + 1)).count (lens.getD sym 0) ≤ (lens.take n).count (lens.getD sym 0) :=
    (List.take_sublist_take_left (by omega)).count_le _
  omega

section
variable {lens : List Nat} {sym sym' l l' code code' : Nat}

/-- The codes of one length are numbers in a range (R96). -/
theorem HasCode.range (hlens : ∀ l ∈ lens, l ≤ 15) (h : HasCode lens sym l code) (hl : l ≠ 0) :
    firstCode lens l ≤ code ∧ code < firstCode lens l + lengthCount lens l := by
  obtain ⟨hsym, rfl, rfl⟩ := h
  have hlt := count_take_lt (lens := lens) hsym le_rfl
  rw [List.take_length] at hlt
  rw [buildCodes_getD hlens hsym hl, lengthCount_eq lens hl]
  omega

/-- Two symbols of one length have different codes. -/
theorem HasCode.unique (hlens : ∀ l ∈ lens, l ≤ 15) (h : HasCode lens sym l code) (h' : HasCode lens sym' l code)
    (hl : l ≠ 0) : sym = sym' := by
  obtain ⟨hsym, rfl, rfl⟩ := h
  obtain ⟨hsym', hl', hcode⟩ := h'
  rw [buildCodes_getD hlens hsym hl, buildCodes_getD hlens hsym' (by rwa [hl']), hl', Nat.add_left_cancel_iff] at hcode
  rcases Nat.lt_trichotomy sym sym' with hlt | heq | hlt
  · have := count_take_lt hlt hsym'.le
    omega
  · exact heq
  · have := count_take_lt hlt hsym.le
    rw [hl'] at this
    omega

/-- Past the codes of one length, the codes of a greater length begin. -/
theorem firstCode_add_lengthCount_le (lens : List Nat) (l n : Nat) :
    (firstCode lens l + lengthCount lens l) * 2 ^ (n + 1) ≤ firstCode lens (l + (n + 1)) := by
  induction n with
  | zero => exact le_rfl
  | succ n ih =>
    rw [← Nat.add_assoc l, firstCode, pow_succ, ← Nat.mul_assoc]
    exact Nat.mul_le_mul_right 2 (ih.trans (Nat.le_add_right _ _))

/-- No code begins with the code of a smaller length. -/
theorem HasCode.not_prefix (hlens : ∀ l ∈ lens, l ≤ 15) (h : HasCode lens sym l code) (h' : HasCode lens sym' l' code')
    (hl : l ≠ 0) (hlt : l < l') : code' / 2 ^ (l' - l) ≠ code := by
  obtain ⟨-, hbelow⟩ := h.range hlens hl
  obtain ⟨hfirst, -⟩ := h'.range hlens (by omega)
  have hpast := firstCode_add_lengthCount_le lens l (l' - l - 1)
  rw [show l' - l - 1 + 1 = l' - l by omega, show l + (l' - l) = l' by omega] at hpast
  have := (Nat.le_div_iff_mul_le (Nat.two_pow_pos (l' - l))).2 (hpast.trans hfirst)
  omega

/-- The codes up to length `l` take their part of the Kraft sum (R96). -/
theorem kraft_ge (lens : List Nat) (hl : l ≤ 15) : (shorterSum lens l + lengthCount lens l) * 2 ^ (15 - l) ≤ kraft lens := by
  induction lens with
  | nil => simp
  | cons k lens ih =>
    have hkraft : kraft (k :: lens) = (if k = 0 then 0 else 2 ^ (15 - k)) + kraft lens := by simp [kraft, Config.maxBits]
    rw [shorterSum_cons, lengthCount_cons, hkraft]
    have hone : ((if k ≠ 0 ∧ k < l then 2 ^ (l - k) else 0) + if k ≠ 0 ∧ k = l then 1 else 0) * 2 ^ (15 - l)
        ≤ if k = 0 then 0 else 2 ^ (15 - k) := by
      by_cases hk : k = 0
      · simp [hk]
      rcases Nat.lt_trichotomy k l with h | rfl | h
      · simp [hk, h, h.ne, ← pow_add, show l - k + (15 - l) = 15 - k by omega]
      · simp [hk]
      · simp [Nat.not_lt.2 h.le, h.ne']
    calc _ = ((if k ≠ 0 ∧ k < l then 2 ^ (l - k) else 0) + if k ≠ 0 ∧ k = l then 1 else 0) * 2 ^ (15 - l)
          + (shorterSum lens l + lengthCount lens l) * 2 ^ (15 - l) := by ring
      _ ≤ _ := Nat.add_le_add hone ih

/-- In a set that is not over-subscribed a code of `l` bits is below `2^l` (R96). -/
theorem HasCode.lt (hlens : ∀ l ∈ lens, l ≤ 15) (hkraft : kraft lens ≤ 2 ^ 15) (h : HasCode lens sym l code) (hl : l ≠ 0)
    (hle : l ≤ 15) : code < 2 ^ l := by
  have hbelow := (h.range hlens hl).2
  have hsum := (kraft_ge lens hle).trans hkraft
  rw [firstCode_eq] at hbelow
  rw [← Nat.add_sub_cancel' hle, pow_add, Nat.add_sub_cancel' hle] at hsum
  exact hbelow.trans_le (Nat.le_of_mul_le_mul_right hsum (Nat.two_pow_pos _))

end

/-! ## Decoding a code -/

/-- A search that finds a symbol finds one with that length and code (R174). -/
theorem findCode_some {l c first sym : Nat} {lens codes : List Nat} (h : findCode l c first lens codes = some sym) :
    ∃ k, sym = first + k ∧ k < lens.length ∧ lens.getD k 0 = l ∧ codes.getD k 0 = c := by
  fun_induction findCode l c first lens codes with
  | case1 first len lens c' codes hmatch =>
    obtain ⟨rfl, rfl⟩ := hmatch
    injection h with h
    exact ⟨0, h.symm, by simp, rfl, rfl⟩
  | case2 first len lens c' codes _ ih =>
    obtain ⟨k, rfl, hk, hlen, hcode⟩ := ih h
    exact ⟨k + 1, by omega, by simpa using hk, by simpa using hlen, by simpa using hcode⟩
  | case3 => cases h

/-- A search that finds nothing has looked at every symbol. -/
theorem findCode_none {l c first : Nat} {lens codes : List Nat} (h : findCode l c first lens codes = none)
    (hcodes : codes.length = lens.length) {k : Nat} (hk : k < lens.length) : ¬ (lens.getD k 0 = l ∧ codes.getD k 0 = c) := by
  fun_induction findCode l c first lens codes generalizing k with
  | case1 => cases h
  | case2 first len lens c' codes hmatch ih =>
    cases k with
    | zero => exact hmatch
    | succ k => simpa using ih h (by simpa using hcodes) (k := k) (by simpa using hk)
  | case3 first lens codes hend =>
    obtain ⟨len, lens, rfl⟩ := List.exists_cons_of_length_pos (Nat.zero_lt_of_lt hk)
    obtain ⟨c', codes, rfl⟩ := List.exists_cons_of_length_pos (l := codes) (by rw [hcodes]; exact Nat.zero_lt_of_lt hk)
    exact absurd rfl (hend len lens c' codes rfl)

/-- In a canonical set the search finds exactly the symbol that has the code. -/
theorem findCode_buildCodes {lens : List Nat} (hlens : ∀ l ∈ lens, l ≤ 15) {l c : Nat} (hl : l ≠ 0) (sym : Nat) :
    findCode l c 0 lens (buildCodes lens).codes = some sym ↔ HasCode lens sym l c := by
  constructor
  · intro h
    obtain ⟨k, rfl, hk, hlen, hcode⟩ := findCode_some h
    rw [Nat.zero_add]
    exact ⟨hk, hlen, hcode⟩
  · intro h
    cases hfind : findCode l c 0 lens (buildCodes lens).codes with
    | none => exact absurd h.2 (findCode_none hfind (assignCodes_length _ _) h.1)
    | some sym' =>
      obtain ⟨k, rfl, hk, hlen, hcode⟩ := findCode_some hfind
      have h' : HasCode lens k l c := ⟨hk, hlen, hcode⟩
      rw [Nat.zero_add, h'.unique hlens h hl]

theorem codeValue_append_singleton (p : Bits) (b : Bool) : codeValue (p ++ [b]) = codeValue p * 2 + b.toNat := by
  simp [codeValue]

section
variable {t : CodeSet} {k : Nat} {p : Bits} {b : Bool} {bs : Bits}

/-- One more bit `b` after the bits `p` makes a code (R174). -/
theorem huffmanLoop_hit {sym : Nat}
    (h : findCode (p ++ [b]).length (codeValue (p ++ [b])) 0 t.lens t.codes = some sym) :
    huffmanLoop t (k + 1) p.length (codeValue p) (b :: bs) = .ok (sym, bs) := by
  rw [codeValue_append_singleton, List.length_append, List.length_singleton] at h
  simp [huffmanLoop, h]

/-- One more bit makes none, and the loop goes on. -/
theorem huffmanLoop_miss (h : findCode (p ++ [b]).length (codeValue (p ++ [b])) 0 t.lens t.codes = none) :
    huffmanLoop t (k + 1) p.length (codeValue p) (b :: bs) = huffmanLoop t k (p ++ [b]).length (codeValue (p ++ [b])) bs := by
  rw [codeValue_append_singleton, List.length_append, List.length_singleton] at h ⊢
  simp [huffmanLoop, h]

end

/-- The loop stops at the first beginning `q` of the bits that, after the bits `p` already read, is a code. -/
theorem huffmanLoop_append {t : CodeSet} {sym : Nat} (rest : Bits) (q : Bits) : ∀ (k : Nat) (p : Bits), q ≠ [] →
    q.length ≤ k → findCode (p ++ q).length (codeValue (p ++ q)) 0 t.lens t.codes = some sym →
    (∀ m, 0 < m → m < q.length →
      findCode (p ++ q.take m).length (codeValue (p ++ q.take m)) 0 t.lens t.codes = none) →
      huffmanLoop t k p.length (codeValue p) (q ++ rest) = .ok (sym, rest) := by
  induction q with
  | nil => intro k p hne; exact absurd rfl hne
  | cons b q ih =>
    intro k p _ hk hfind hbefore
    obtain ⟨k, rfl⟩ := Nat.exists_eq_succ_of_ne_zero (Nat.ne_of_gt (Nat.zero_lt_of_lt hk))
    rw [List.cons_append]
    by_cases hq : q = []
    · subst hq
      exact huffmanLoop_hit hfind
    · have hfirst := hbefore 1 (by decide) (by simpa using List.length_pos_iff.2 hq)
      rw [List.take_succ_cons, List.take_zero] at hfirst
      rw [huffmanLoop_miss hfirst]
      refine ih k (p ++ [b]) hq (by simpa using hk) (by simpa using hfind) fun m hm hlt => ?_
      simpa using hbefore (m + 1) (by omega) (by simpa using hlt)

/-- What the loop answers are the bits up to a code. -/
theorem huffmanLoop_ok {t : CodeSet} {sym : Nat} {rest : Bits} (k : Nat) : ∀ (p bs : Bits),
    huffmanLoop t k p.length (codeValue p) bs = .ok (sym, rest) →
      ∃ q, bs = q ++ rest ∧ q ≠ [] ∧ findCode (p ++ q).length (codeValue (p ++ q)) 0 t.lens t.codes = some sym := by
  induction k with
  | zero => intro p bs h; cases h
  | succ k ih =>
    intro p bs h
    cases bs with
    | nil => cases h
    | cons b bs =>
      cases hfirst : findCode (p ++ [b]).length (codeValue (p ++ [b])) 0 t.lens t.codes with
      | some s =>
        rw [huffmanLoop_hit hfirst] at h
        cases h
        exact ⟨[b], rfl, List.cons_ne_nil _ _, hfirst⟩
      | none =>
        rw [huffmanLoop_miss hfirst] at h
        obtain ⟨q, rfl, -, hfind⟩ := ih _ _ h
        exact ⟨b :: q, rfl, List.cons_ne_nil _ _, by simpa using hfind⟩

/-- The loop fails for want of bits, or after all lengths (R174). -/
theorem huffmanLoop_error {t : CodeSet} {e : Reject} (k l c : Nat) (bs : Bits) (h : huffmanLoop t k l c bs = .error e) :
    e = .truncated ∧ bs.length < k ∨ e = .noCode ∧ k ≤ bs.length := by
  induction k generalizing l c bs with
  | zero => cases h; exact .inr ⟨rfl, Nat.zero_le _⟩
  | succ k ih =>
    cases bs with
    | nil => cases h; exact .inl ⟨rfl, Nat.succ_pos k⟩
    | cons b bs =>
      rw [huffmanLoop] at h
      split at h
      · cases h
      · exact (ih _ _ _ h).imp (And.imp_right Nat.succ_lt_succ) (And.imp_right Nat.succ_le_succ)

theorem le_foldl_max (lens : List Nat) (acc : Nat) :
    acc ≤ lens.foldl Nat.max acc ∧ ∀ l ∈ lens, l ≤ lens.foldl Nat.max acc := by
  induction lens generalizing acc with
  | nil => simp
  | cons k lens ih =>
    obtain ⟨hacc, hmem⟩ := ih (Nat.max acc k)
    refine ⟨(Nat.le_max_left acc k).trans hacc, fun l hl => ?_⟩
    rcases List.mem_cons.1 hl with rfl | hl
    · exact (Nat.le_max_right acc l).trans hacc
    · exact hmem l hl

/-- `maxlen` is a bound of the lengths (R96). -/
theorem le_maxLen {lens : List Nat} {l : Nat} (hl : l ∈ lens) : l ≤ (buildCodes lens).maxLen :=
  (le_foldl_max lens 0).2 l hl

theorem HasCode.mem {lens : List Nat} {sym l code : Nat} (h : HasCode lens sym l code) : l ∈ lens := by
  obtain ⟨hsym, rfl, -⟩ := h
  rw [List.getD_eq_getElem _ _ hsym]
  exact List.getElem_mem hsym

/-- The code of a symbol decodes to it and nothing after it is read (R96, R174). -/
theorem HasCode.decode {lens : List Nat} {sym l code : Nat} (h : HasCode lens sym l code) (hlens : ∀ l ∈ lens, l ≤ 15)
    (hkraft : kraft lens ≤ 2 ^ 15) (hl : l ≠ 0) (rest : Bits) :
    huffmanDecode (buildCodes lens) (codeBits l code ++ rest) = .ok (sym, rest) := by
  have hcode := h.lt hlens hkraft hl (hlens l h.mem)
  have hlength := codeBits_length l code
  refine huffmanLoop_append rest (codeBits l code) _ [] ?_ ?_ ?_ fun m hm hlt => ?_
  · exact List.ne_nil_of_length_pos (by omega)
  · rw [hlength]
    exact le_maxLen h.mem
  · rw [List.nil_append, hlength, codeValue_codeBits hcode]
    exact (findCode_buildCodes hlens hl sym).2 h
  · rw [hlength] at hlt
    have hprefix : (codeBits l code).take m = codeBits m (code / 2 ^ (l - m)) := by
      have := codeBits_take m (l - m) code
      rwa [Nat.add_sub_cancel' hlt.le] at this
    have hvalue : code / 2 ^ (l - m) < 2 ^ m := by
      apply Nat.div_lt_of_lt_mul
      rwa [← pow_add, Nat.sub_add_cancel hlt.le]
    rw [List.nil_append, hprefix, codeBits_length, codeValue_codeBits hvalue, Option.eq_none_iff_forall_ne_some]
    intro sym' hfind
    have h' := (findCode_buildCodes hlens hm.ne' sym').1 hfind
    exact h'.not_prefix hlens h hm.ne' hlt rfl

/-- Settles O38: `HasCode.lt` and `HasCode.decode` at the symbol's own code. -/
theorem codesDecodeToTheirSymbols : Obligations.CodesDecodeToTheirSymbols := by
  intro lens sym rest hlens hkraft hsym hl
  have h : HasCode lens sym (lens.getD sym 0) ((buildCodes lens).codes.getD sym 0) := ⟨hsym, rfl, rfl⟩
  exact ⟨h.lt hlens hkraft hl (hlens _ h.mem), h.decode hlens hkraft hl rest⟩

/-- What is decoded is the code of the symbol (R174). -/
theorem huffmanDecode_ok {lens : List Nat} {bs rest : Bits} {sym : Nat} (hlens : ∀ l ∈ lens, l ≤ 15)
    (h : huffmanDecode (buildCodes lens) bs = .ok (sym, rest)) :
    sym < lens.length ∧ bs = codeBits (lens.getD sym 0) ((buildCodes lens).codes.getD sym 0) ++ rest := by
  obtain ⟨q, rfl, hne, hfind⟩ := huffmanLoop_ok _ [] _ h
  rw [List.nil_append] at hfind
  obtain ⟨hsym, hlen, hcode⟩ := (findCode_buildCodes hlens (by simpa using hne) sym).1 hfind
  exact ⟨hsym, by rw [hlen, hcode, codeBits_codeValue]⟩

end Sys2Proof.Machine
end

section
/-! PROOF. The decoders of the fixed codes (30_encoding.md R97, R98) are those of the canonical sets with the fixed lengths
(R96). Each decoder, reading the code of a symbol, answers the element of that symbol, and reads nothing else; so it agrees with the
canonical one on every bit sequence. -/

namespace Sys2Proof.Machine

/-! ## When a decoder is the canonical one -/

/-- The code of a symbol in the canonical set of these lengths. -/
def symbolCode (lens : List Nat) (sym : Nat) : Bits :=
  codeBits (lens.getD sym 0) ((buildCodes lens).codes.getD sym 0)

/-- `dec` reads the code of every symbol as its element `element sym`, and reads nothing else but too short bit sequences. -/
structure ReadsCanonically (lens : List Nat) (element : Nat → Instr) (dec : Bits → Except Reject (Instr × Bits)) : Prop where
  /-- the set is one of R96, not over-subscribed, and every symbol has a code -/
  lens_le : ∀ l ∈ lens, l ≤ 15
  lens_ne : ∀ l ∈ lens, l ≠ 0
  kraft_le : kraft lens ≤ 2 ^ 15
  reads : ∀ sym rest, sym < lens.length → dec (symbolCode lens sym ++ rest) = .ok (element sym, rest)
  reads_only : ∀ bs i rest, dec bs = .ok (i, rest) → ∃ sym, sym < lens.length ∧ bs = symbolCode lens sym ++ rest
  error : ∀ bs e, dec bs = .error e → e = .truncated ∧ ∃ l ∈ lens, bs.length < l

namespace ReadsCanonically

variable {lens : List Nat} {element : Nat → Instr} {dec : Bits → Except Reject (Instr × Bits)}

/-- Every symbol decodes from its code (R174). -/
theorem huffmanDecode_symbolCode (h : ReadsCanonically lens element dec) {sym : Nat} (hsym : sym < lens.length) (rest : Bits) :
    huffmanDecode (buildCodes lens) (symbolCode lens sym ++ rest) = .ok (sym, rest) := by
  have hcode : HasCode lens sym (lens.getD sym 0) ((buildCodes lens).codes.getD sym 0) := ⟨hsym, rfl, rfl⟩
  exact hcode.decode h.lens_le h.kraft_le (h.lens_ne _ hcode.mem) rest

/-- A symbol the canonical decoder finds, `dec` finds as its element. -/
theorem dec_of_ok (h : ReadsCanonically lens element dec) {bs rest : Bits} {sym : Nat}
    (hdec : huffmanDecode (buildCodes lens) bs = .ok (sym, rest)) : sym < lens.length ∧ dec bs = .ok (element sym, rest) := by
  obtain ⟨hsym, rfl⟩ := huffmanDecode_ok h.lens_le hdec
  exact ⟨hsym, h.reads sym rest hsym⟩

/-- Where the canonical decoder fails, `dec` fails with the same error: bits `dec` reads are a code, and bits it does not read
are too few for both. -/
theorem dec_of_error (h : ReadsCanonically lens element dec) {bs : Bits} {e : Reject}
    (herr : huffmanDecode (buildCodes lens) bs = .error e) : dec bs = .error e := by
  cases hdec : dec bs with
  | ok r =>
    obtain ⟨i, rest⟩ := r
    obtain ⟨sym, hsym, rfl⟩ := h.reads_only bs i rest hdec
    rw [h.huffmanDecode_symbolCode hsym] at herr
    cases herr
  | error e' =>
    obtain ⟨rfl, l, hl, hshort⟩ := h.error bs e' hdec
    rcases huffmanLoop_error _ _ _ _ herr with ⟨rfl, -⟩ | ⟨-, hlong⟩
    · rfl
    · have := le_maxLen hl
      omega

end ReadsCanonically

/-! ## The fixed literal/length set -/

section
variable {sym : Nat}

/-- The lengths of R97 before symbol `sym`. -/
theorem fixedLitLenLens_take (sym : Nat) :
    fixedLitLenLens.take sym = List.replicate (min sym 144) 8 ++ List.replicate (min (sym - 144) 112) 9
      ++ List.replicate (min (sym - 256) 24) 7 ++ List.replicate (min (sym - 280) 8) 8 := by
  simp [-List.reduceReplicate, fixedLitLenLens, List.take_append, List.take_replicate, Nat.sub_sub]

theorem fixedLitLenLens_length : fixedLitLenLens.length = 288 := by
  simp [-List.reduceReplicate, fixedLitLenLens]

theorem fixedLitLenLens_mem {l : Nat} (h : l ∈ fixedLitLenLens) : l = 7 ∨ l = 8 ∨ l = 9 := by
  simp only [fixedLitLenLens, List.mem_append, List.mem_replicate] at h
  omega

theorem fixedLitLenLens_getD (hsym : sym < 288) :
    fixedLitLenLens.getD sym 0 = if sym < 144 then 8 else if sym < 256 then 9 else if sym < 280 then 7 else 8 := by
  simp only [fixedLitLenLens, List.getD_eq_getElem?_getD, List.getElem?_append, List.getElem?_replicate, List.length_append,
    List.length_replicate]
  split_ifs <;> first | rfl | omega

theorem fixedLitLenLens_kraft : kraft fixedLitLenLens = 2 ^ 15 := by
  simp [-List.reduceReplicate, kraft, fixedLitLenLens, Config.maxBits]

/-- The first codes of the three lengths of R97. -/
theorem fixedLitLenLens_firstCode :
    firstCode fixedLitLenLens 7 = 0 ∧ firstCode fixedLitLenLens 8 = 0x30 ∧ firstCode fixedLitLenLens 9 = 0x190 := by
  simp [-List.reduceReplicate, firstCode, lengthCount, fixedLitLenLens, List.count_replicate]

/-- The codes of R97, by the ranges of its table. -/
theorem fixedLitLen_code (hsym : sym < 288) :
    (buildCodes fixedLitLenLens).codes.getD sym 0 =
      if sym < 144 then 0x30 + sym else if sym < 256 then 0x190 + (sym - 144) else if sym < 280 then sym - 256
      else 0xC0 + (sym - 280) := by
  obtain ⟨h7, h8, h9⟩ := fixedLitLenLens_firstCode
  have hlens : ∀ l ∈ fixedLitLenLens, l ≤ 15 := fun l hl => by have := fixedLitLenLens_mem hl; omega
  have hlen := fixedLitLenLens_getD hsym
  have hne : fixedLitLenLens.getD sym 0 ≠ 0 := by rw [hlen]; split_ifs <;> decide
  rw [buildCodes_getD hlens (by rw [fixedLitLenLens_length]; exact hsym) hne, hlen, fixedLitLenLens_take]
  split_ifs
  · simp [h8, List.count_replicate]; omega
  · simp [h9, List.count_replicate]; omega
  · simp [h7, List.count_replicate]; omega
  · simp [h8, List.count_replicate]; omega

/-- The element of a fixed literal/length code, by the table of R97. -/
def fixedLitLenElement (sym : Nat) : Instr :=
  if sym < 144 then .fixedLl0To143 (BitVec.ofNat 8 (0x30 + sym))
  else if sym < 256 then .fixedLl144To255 (BitVec.ofNat 9 (0x190 + (sym - 144)))
  else if sym < 280 then .fixedLl256To279 (BitVec.ofNat 7 (sym - 256))
  else .fixedLl280To287 (BitVec.ofNat 8 (0xC0 + (sym - 280)))

theorem fixedLitLenElement_namesSymbol (hsym : sym < 288) : Instr.NamesSymbol (fixedLitLenElement sym) sym := by
  obtain ⟨hlow, hmid, hshort, hhigh, -⟩ := fixedCodesNameTheirSymbols
  unfold fixedLitLenElement
  split_ifs
  · have h := hlow (BitVec.ofNat 8 (0x30 + sym)) (by simp; omega) (by simp; omega)
    rwa [BitVec.toNat_ofNat, show (0x30 + sym) % 2 ^ 8 - 0x30 = sym by omega] at h
  · have h := hmid (BitVec.ofNat 9 (0x190 + (sym - 144))) (by simp; omega)
    rwa [BitVec.toNat_ofNat, show 144 + ((0x190 + (sym - 144)) % 2 ^ 9 - 0x190) = sym by omega] at h
  · have h := hshort (BitVec.ofNat 7 (sym - 256)) (by simp; omega)
    rwa [BitVec.toNat_ofNat, show 256 + (sym - 256) % 2 ^ 7 = sym by omega] at h
  · have h := hhigh (BitVec.ofNat 8 (0xC0 + (sym - 280))) (by simp; omega) (by simp; omega)
    rwa [BitVec.toNat_ofNat, show 280 + ((0xC0 + (sym - 280)) % 2 ^ 8 - 0xC0) = sym by omega] at h

/-- The element of a symbol is spelled by the symbol's code. -/
theorem fixedLitLenElement_encode (hsym : sym < 288) :
    encode (fixedLitLenElement sym) = symbolCode fixedLitLenLens sym := by
  unfold symbolCode fixedLitLenElement
  rw [fixedLitLen_code hsym, fixedLitLenLens_getD hsym]
  split_ifs
  · rw [encode, BitVec.toNat_ofNat, Nat.mod_eq_of_lt (by omega)]
  · rw [encode, BitVec.toNat_ofNat, Nat.mod_eq_of_lt (by omega)]
  · rw [encode, BitVec.toNat_ofNat, Nat.mod_eq_of_lt (by omega)]
  · rw [encode, BitVec.toNat_ofNat, Nat.mod_eq_of_lt (by omega)]

theorem fixedLitLenElement_wellFormed (hsym : sym < 288) :
    (fixedLitLenElement sym).wellFormed = true ∧ (fixedLitLenElement sym).format = .fixedLitLen := by
  unfold fixedLitLenElement
  split_ifs <;> refine ⟨?_, rfl⟩ <;> simp [Instr.wellFormed] <;> omega

end

/-- A well-formed element of a fixed literal/length code is that of a symbol (R97). -/
theorem exists_fixedLitLenElement {i : Instr} (hf : i.format = .fixedLitLen) (hwf : i.wellFormed = true) :
    ∃ sym, sym < 288 ∧ i = fixedLitLenElement sym := by
  cases i with
  | fixedLl0To143 c =>
    simp only [Instr.wellFormed, Bool.and_eq_true, decide_eq_true_eq] at hwf
    refine ⟨c.toNat - 0x30, by omega, ?_⟩
    rw [fixedLitLenElement, if_pos (by omega), show 0x30 + (c.toNat - 0x30) = c.toNat by omega, BitVec.ofNat_toNat,
      BitVec.setWidth_eq]
  | fixedLl144To255 c =>
    have hlow : 0x190 ≤ c.toNat := by simpa [Instr.wellFormed] using hwf
    have hlt := c.isLt
    refine ⟨144 + (c.toNat - 0x190), by omega, ?_⟩
    rw [fixedLitLenElement, if_neg (by omega), if_pos (by omega),
      show 0x190 + (144 + (c.toNat - 0x190) - 144) = c.toNat by omega, BitVec.ofNat_toNat, BitVec.setWidth_eq]
  | fixedLl256To279 c =>
    have hhigh : c.toNat ≤ 0x17 := by simpa [Instr.wellFormed] using hwf
    refine ⟨256 + c.toNat, by omega, ?_⟩
    rw [fixedLitLenElement, if_neg (by omega), if_neg (by omega), if_pos (by omega),
      show 256 + c.toNat - 256 = c.toNat by omega, BitVec.ofNat_toNat, BitVec.setWidth_eq]
  | fixedLl280To287 c =>
    simp only [Instr.wellFormed, Bool.and_eq_true, decide_eq_true_eq] at hwf
    refine ⟨280 + (c.toNat - 0xC0), by omega, ?_⟩
    rw [fixedLitLenElement, if_neg (by omega), if_neg (by omega), if_neg (by omega),
      show 0xC0 + (280 + (c.toNat - 0xC0) - 280) = c.toNat by omega, BitVec.ofNat_toNat, BitVec.setWidth_eq]
  | _ => cases hf

/-- The next `m` bits as a code are the next `m + n` without the last `n`. -/
theorem codeValue_take {m n : Nat} {bs : Bits} (h : m + n ≤ bs.length) :
    codeValue (bs.take m) = codeValue (bs.take (m + n)) / 2 ^ n := by
  have hlen : (bs.take (m + n)).length = m + n := List.length_take_of_le h
  have hlt := codeValue_lt (bs.take (m + n))
  have hcode := codeBits_codeValue (bs.take (m + n))
  rw [hlen] at hlt hcode
  have htake : bs.take m = codeBits m (codeValue (bs.take (m + n)) / 2 ^ n) := by
    rw [← codeBits_take, hcode, List.take_take, Nat.min_eq_left (Nat.le_add_right _ _)]
  rw [htake, codeValue_codeBits]
  exact Nat.div_lt_of_lt_mul (by rwa [← pow_add, Nat.add_comm n])

/-- The fixed decoder answers codes of R97's table only. -/
theorem decodeFixedLitLen_wellFormed {bs rest : Bits} {i : Instr} (h : decodeFixedLitLen bs = .ok (i, rest)) :
    i.wellFormed = true := by
  unfold decodeFixedLitLen at h
  split at h
  · cases h
  next h7 =>
  obtain ⟨-, rfl, -⟩ := takeBits_ok h7
  split at h
  · next hlow =>
    cases h
    simp [Instr.wellFormed]
    omega
  next habove =>
  split at h
  · cases h
  next h8 =>
  obtain ⟨hn, rfl, -⟩ := takeBits_ok h8
  have hlt := codeValue_lt (bs.take 8)
  have h78 : codeValue (bs.take 7) = codeValue (bs.take 8) / 2 := codeValue_take (n := 1) hn
  rw [List.length_take_of_le hn] at hlt
  split at h
  · cases h
    simp [Instr.wellFormed]
    omega
  split at h
  · cases h
    simp [Instr.wellFormed]
    omega
  split at h
  · cases h
  next h9 =>
  cases h
  obtain ⟨hn', rfl, -⟩ := takeBits_ok h9
  have hlt' := codeValue_lt (bs.take 9)
  have h89 : codeValue (bs.take 8) = codeValue (bs.take 9) / 2 := codeValue_take (n := 1) hn'
  rw [List.length_take_of_le hn'] at hlt'
  simp [Instr.wellFormed]
  omega

/-- The fixed decoder fails only for want of bits (R172). -/
theorem decodeFixedLitLen_error {bs : Bits} {e : Reject} (h : decodeFixedLitLen bs = .error e) :
    e = .truncated ∧ bs.length < 9 := by
  unfold decodeFixedLitLen at h
  repeat' split at h
  all_goals cases h
  all_goals
    next herr =>
    obtain ⟨rfl, hlen⟩ := takeBits_error herr
    exact ⟨rfl, by omega⟩

theorem decodeFixedLitLen_canonical : ReadsCanonically fixedLitLenLens fixedLitLenElement decodeFixedLitLen where
  lens_le l hl := by have := fixedLitLenLens_mem hl; omega
  lens_ne l hl := by have := fixedLitLenLens_mem hl; omega
  kraft_le := fixedLitLenLens_kraft.le
  reads sym rest hsym := by
    rw [fixedLitLenLens_length] at hsym
    obtain ⟨hwf, hf⟩ := fixedLitLenElement_wellFormed hsym
    have h := decodeOfEncodeIsTheInstruction (fixedLitLenElement sym) rest hwf
    rwa [hf, fixedLitLenElement_encode hsym] at h
  reads_only bs i rest h := by
    obtain ⟨sym, hsym, rfl⟩ := exists_fixedLitLenElement (decode_reads .fixedLitLen bs i rest h)
      (decodeFixedLitLen_wellFormed h)
    have hbits := decodeFixedLitLen_spells bs _ _ h
    rw [fixedLitLenElement_encode hsym] at hbits
    exact ⟨sym, by rwa [fixedLitLenLens_length], hbits⟩
  error bs e h := by
    obtain ⟨rfl, hlen⟩ := decodeFixedLitLen_error h
    exact ⟨rfl, 9, by simp [-List.reduceReplicate, fixedLitLenLens], hlen⟩

/-! ## The fixed distance set -/

theorem fixedDistLens_length : fixedDistLens.length = 32 := List.length_replicate

/-- The code of a fixed distance symbol is its number (R98). -/
theorem fixedDist_symbolCode {d : Nat} (hd : d < 32) : symbolCode fixedDistLens d = codeBits 5 d := by
  have hlens : ∀ l ∈ fixedDistLens, l ≤ 15 := fun l hl => by rw [(List.mem_replicate.1 hl).2]; decide
  have hlen : fixedDistLens.getD d 0 = 5 := by
    simp [-List.reduceReplicate, fixedDistLens, List.getD_eq_getElem?_getD, hd]
  have hfirst : firstCode fixedDistLens 5 = 0 := by simp [firstCode, lengthCount, fixedDistLens]
  rw [symbolCode, buildCodes_getD hlens (by rwa [fixedDistLens_length]) (by rw [hlen]; decide), hlen, hfirst]
  simp [-List.reduceReplicate, fixedDistLens, List.take_replicate, hd.le]

theorem decodeFixedDist_error {bs : Bits} {e : Reject} (h : decodeFixedDist bs = .error e) :
    e = .truncated ∧ bs.length < 5 := by
  unfold decodeFixedDist at h
  split at h <;> cases h
  next herr => exact takeBits_error herr

theorem decodeFixedDist_canonical :
    ReadsCanonically fixedDistLens (fun d => .fixedDist0To31 (BitVec.ofNat 5 d)) decodeFixedDist where
  lens_le l hl := by rw [(List.mem_replicate.1 hl).2]; decide
  lens_ne l hl := by rw [(List.mem_replicate.1 hl).2]; decide
  kraft_le := by simp [kraft, fixedDistLens, Config.maxBits]
  reads d rest hd := by
    rw [fixedDistLens_length] at hd
    have h := decodeFixedDist_codeBits (BitVec.ofNat 5 d) rest
    rwa [BitVec.toNat_ofNat, Nat.mod_eq_of_lt hd, ← fixedDist_symbolCode hd] at h
  reads_only bs i rest h := by
    have hbits := decodeFixedDist_spells bs _ _ h
    unfold decodeFixedDist at h
    split at h <;> cases h
    rw [encode, ← fixedDist_symbolCode (BitVec.isLt _)] at hbits
    exact ⟨_, by rw [fixedDistLens_length]; exact BitVec.isLt _, hbits⟩
  error bs e h := by
    obtain ⟨rfl, hlen⟩ := decodeFixedDist_error h
    exact ⟨rfl, 5, List.mem_replicate.2 ⟨by decide, rfl⟩, hlen⟩

/-- Settles O41: both fixed decoders read canonically. -/
theorem fixedCodesAreTheCanonicalOnes : Obligations.FixedCodesAreTheCanonicalOnes := by
  refine ⟨fun bs => ?_, fun bs => ?_⟩
  · split
    · next sym rest hdec =>
      obtain ⟨hsym, hread⟩ := decodeFixedLitLen_canonical.dec_of_ok hdec
      exact ⟨_, hread, fixedLitLenElement_namesSymbol (fixedLitLenLens_length ▸ hsym)⟩
    · next e hdec => exact decodeFixedLitLen_canonical.dec_of_error hdec
  · split
    · next d rest hdec =>
      obtain ⟨hd, hread⟩ := decodeFixedDist_canonical.dec_of_ok hdec
      rw [fixedDistLens_length] at hd
      refine ⟨_, hread, ?_⟩
      have hname := namesDistance_fixedDist (BitVec.ofNat 5 d)
      rwa [BitVec.toNat_ofNat, Nat.mod_eq_of_lt hd] at hname
    · next e hdec => exact decodeFixedDist_canonical.dec_of_error hdec

end Sys2Proof.Machine
end

section
/-! PROOF. INFLATE of a stream of one stored block (43_inflate.md R175, R180, R208): the source bits are the encodings of three
elements, the data and the trailer, one after the other, and each internal step reads one element and moves the cursor past
it. -/

namespace Sys2Proof.Machine

/-! ## Reading an element from the source region -/

/-- The decoder sees the bits of the source region from the cursor on (R171). -/
theorem State.window_eq (s : State) (ipos : Nat) :
    s.window ipos = ((streamBits (s.memRead s.src.toNat s.slen.toNat)).drop ipos).take 64 := by
  apply List.ext_getElem?
  intro k
  by_cases hk : k < 64
  · rw [sourceBitsStandInStreamOrder s ipos k hk, List.getElem?_take_of_lt hk, List.getElem?_drop, streamBits_getElem?,
      State.memRead_getElem?]
    have hbyte : (ipos + k) / 8 < s.slen.toNat ↔ ipos + k < 8 * s.slen.toNat := by omega
    simp only [hbyte]
    split <;> rfl
  · rw [State.window, windowBits, List.getElem?_take, List.getElem?_take, if_neg hk, if_neg hk]

/-- The element that stands at the cursor is read and executed, the cursor having moved past it (R126, 30_encoding.md R107).
`code` is its encoding with the padding before it, and `pre` the bits before that. -/
theorem engineStep_element {s : State} {w : Infl} {i : Instr} {pre code : Bits} {n : Nat} (h : s.Inflating w)
    (hbits : pre ++ code <+: streamBits (s.memRead s.src.toNat s.slen.toNat)) (hpos : pre.length = w.ipos)
    (hlen : code.length = n) (hn : n ≤ 64) (hdec : ∀ rest, w.decodeNext (code ++ rest) = .ok (i, rest)) :
    engineStep s = exec i (s.withInfl { w with ipos := w.ipos + n }) := by
  obtain ⟨hengine, hsrc, hdst, -⟩ := h
  subst hlen
  obtain ⟨post, hpost⟩ := hbits
  have hwindow : s.window w.ipos = code ++ post.take (64 - code.length) := by
    rw [State.window_eq, ← hpost, List.append_assoc, List.drop_left' hpos, List.take_append, List.take_of_length_le hn]
  have hmoved : (code ++ post.take (64 - code.length)).length - (post.take (64 - code.length)).length = code.length := by
    rw [List.length_append, Nat.add_sub_cancel]
  have hvalid : s.inflRegionsValid = true := by simp [State.inflRegionsValid, hsrc, hdst]
  simp only [engineStep, fetch, hengine, fetchElement, hvalid, if_true, hwindow, hdec, hmoved]
  rfl

theorem State.memRead_withInfl (s : State) (w : Infl) (a n : Nat) : (s.withInfl w).memRead a n = s.memRead a n := by
  induction n generalizing a with
  | zero => rfl
  | succ n ih => rw [State.memRead, State.memRead, ih]; rfl

/-- A part of a region read as a whole. -/
theorem State.memRead_drop_take (s : State) (a m n k : Nat) (h : m + n ≤ k) :
    ((s.memRead a k).drop m).take n = s.memRead (a + m) n := by
  apply List.ext_getElem?
  intro i
  rw [List.getElem?_take, List.getElem?_drop, State.memRead_getElem?, State.memRead_getElem?, Nat.add_assoc]
  by_cases hi : i < n
  · rw [if_pos hi, if_pos hi, if_pos (by omega)]
  · rw [if_neg hi, if_neg hi]

/-! ## The ends of the command -/

/-- INFLATE that passes its checks starts (R175). -/
theorem exec_inflate_starts {s : State} (hsrc : s.holds s.srcRegion = true) (hdst : s.holds s.dstRegion = true)
    (hoverlap : s.dstRegion.overlaps s.srcRegion = false) : exec .inflate s = .next (s.withInfl Infl.start) := by
  show execInflate s = _
  simp only [execInflate, hsrc, hdst, hoverlap, Bool.and_self, Bool.not_true, Bool.false_eq_true, if_false]
  rfl

/-- A trailer that is the checksum of the output completes the command (R206, R208). -/
theorem exec_zlibTrailer_done {s : State} {w : Infl} {a : Word} (h : s.Inflating w) (ha : a.toNat = adlerValue w.s1 w.s2) :
    exec (.zlibTrailer a) s = .next (s.inflateDone w) := by
  obtain ⟨hengine, hsrc, hdst, -⟩ := h
  have hvalid : s.inflRegionsValid = true := by simp [State.inflRegionsValid, hsrc, hdst]
  show execZlibTrailer a s = _
  simp only [execZlibTrailer, hengine, hvalid, ha, if_true]

/-- The success of INFLATE writes the output to `DST` and changes nothing else but `ICONS` and `ADLER` (R208). -/
theorem State.inflateDone_succeedsWriting {s : State} {w : Infl} (hstatus : s.status = Status.running) (hw : w.Counted)
    (hcap : w.count ≤ s.dcap.toNat) : s.SucceedsWriting (s.inflateDone w) w.out := by
  have hlt := s.dcap.isLt
  refine ⟨⟨rfl, rfl, rfl, rfl, rfl, rfl, rfl, rfl, rfl, rfl, rfl, rfl, rfl, rfl, rfl, rfl⟩, rfl, ?_, ?_, rfl, rfl, ?_, ?_⟩
  · rw [State.inflateDone_status, hstatus, Status.running_succeeded]
  · rw [State.inflateDone_dlen, BitVec.toNat_ofNat, Nat.mod_eq_of_lt (by omega), hw.length_out]
  · intro a ha
    rw [← State.byteAt_memWrite_outside s s.dst.toNat w.out a ha]
    exact State.byteAt_congr _ _ rfl rfl a
  · intro i hi
    rw [← State.byteAt_memWrite_inside s s.dst.toNat w.out i hi]
    exact State.byteAt_congr _ _ rfl rfl _

/-- Adler-32 is a word (R105). -/
theorem adler32_lt (data : List Byte) : adler32 data < 2 ^ 32 := by
  have hsums : (adlerSums data).1 < adlerMod ∧ (adlerSums data).2 < adlerMod := by
    induction data using List.reverseRecOn with
    | nil => decide
    | append_singleton data b ih =>
      rw [adlerSums_append]
      exact ⟨Nat.mod_lt _ (by decide), Nat.mod_lt _ (by decide)⟩
  obtain ⟨h1, h2⟩ := hsums
  unfold adlerMod at h1 h2
  unfold adler32 adlerValue
  omega

/-! ## The stream of one stored block -/

/-- The header `78 01` (R92). -/
def storedHeader : Instr := .zlibHeader 7#4 0#2 false 1#5

/-- `LEN` and `NLEN` of `n` bytes (R95). -/
def storedLenOf (n : Nat) : Instr := .storedLen (BitVec.ofNat 16 n) (BitVec.ofNat 16 (65535 - n))

/-- Two bytes, little-endian, are a field of 16 bits (R95). -/
theorem streamBits_serBe_reverse (n : Nat) : streamBits (serBe 2 n).reverse = fieldBits 16 n := by
  have hbyte (v : Nat) : fieldBits 8 (BitVec.ofNat 8 v).toNat = fieldBits 8 v := by rw [BitVec.toNat_ofNat, fieldBits_mod]
  rw [fieldBits_add 8 8 n, ← hbyte n, ← hbyte (n / 2 ^ 8)]
  simp [serBe, streamBits]

theorem encode_storedLenOf (n : Nat) :
    encode (storedLenOf n) = streamBits (serBe 2 n).reverse ++ streamBits (serBe 2 (65535 - n)).reverse := by
  have hword (v : Nat) : fieldBits 16 (BitVec.ofNat 16 v).toNat = fieldBits 16 v := by rw [BitVec.toNat_ofNat, fieldBits_mod]
  rw [storedLenOf, encode, hword, hword, streamBits_serBe_reverse, streamBits_serBe_reverse]

/-- The trailer that belongs to the data (R105). -/
def trailerOf (data : List Byte) : Instr := .zlibTrailer (BitVec.ofNat 32 (adler32 data))

theorem encode_trailerOf (data : List Byte) : encode (trailerOf data) = streamBits (serBe 4 (adler32 data)) := by
  rw [trailerOf, encode, BitVec.toNat_ofNat, Nat.mod_eq_of_lt (adler32_lt data)]
  rfl

/-- The bits of the stream are the encodings of its elements, with five bits of padding before `LEN`, and the data before the
trailer. -/
theorem streamBits_storedStream (data : List Byte) :
    streamBits (storedStream data) =
      encode storedHeader ++ encode (.blockStored true) ++ (List.replicate 5 false ++ encode (storedLenOf data.length))
        ++ streamBits data ++ encode (trailerOf data) := by
  have hheader : streamBits [0x78#8, 0x01#8, 0x01#8] =
      encode storedHeader ++ encode (.blockStored true) ++ List.replicate 5 false := by decide
  rw [storedStream, streamBits_append, streamBits_append, streamBits_append, streamBits_append, hheader, encode_storedLenOf,
    encode_trailerOf]
  simp only [List.append_assoc]

/-- `NLEN` is the complement of `LEN` (R95). -/
theorem storedLen_complement {n : Nat} (hn : n < 65536) :
    BitVec.ofNat 16 (65535 - n) = BitVec.ofNat 16 n ^^^ 0xFFFF#16 := by
  rw [show (0xFFFF#16 : BitVec 16) = BitVec.allOnes 16 from rfl, BitVec.xor_allOnes]
  apply BitVec.eq_of_toNat_eq
  simp
  omega

/-- The data stand at the eighth byte of the stream. -/
theorem storedStream_data (data : List Byte) : ((storedStream data).drop 7).take data.length = data := by
  simp [storedStream, serBe]

/-! ## The internal steps -/

/-- The working state after the header. -/
def afterStoredHeader : Infl :=
  { Infl.start with ipos := 16, phase := .block }

/-- The working state after the block header. -/
def afterStoredBlock : Infl :=
  { afterStoredHeader with ipos := 19, final := true, phase := .storedBody }

/-- The working state after the data. -/
def afterStoredData (data : List Byte) : Infl :=
  { afterStoredBlock.grownTo data with ipos := 56 + 8 * data.length, phase := .trailer }

/-- The working state with which the trailer completes the command. -/
def afterStoredTrailer (data : List Byte) : Infl :=
  { afterStoredData data with ipos := 88 + 8 * data.length }

/-- The source region of an INFLATE whose checks pass holds the stream of one stored block with `data`. -/
structure HoldsStored (s : State) (data : List Byte) : Prop where
  status : s.status = Status.running
  src : s.holds s.srcRegion = true
  dst : s.holds s.dstRegion = true
  overlap : s.dstRegion.overlaps s.srcRegion = false
  short : data.length < 65536
  slen : s.slen.toNat = data.length + 11
  dcap : data.length ≤ s.dcap.toNat
  stream : s.memRead s.src.toNat s.slen.toNat = storedStream data

namespace HoldsStored

variable {s : State} {data : List Byte}

theorem inflating (h : HoldsStored s data) (w : Infl) : (s.withInfl w).Inflating w := ⟨rfl, h.src, h.dst, h.status⟩

/-- The element `code` stands at the cursor of `w`. -/
theorem engineStep_element (h : HoldsStored s data) {w : Infl} {i : Instr} {pre code : Bits} {n : Nat}
    (hbits : pre ++ code <+: streamBits (storedStream data)) (hpos : pre.length = w.ipos) (hlen : code.length = n)
    (hn : n ≤ 64) (hdec : ∀ rest, w.decodeNext (code ++ rest) = .ok (i, rest)) :
    engineStep (s.withInfl w) = exec i (s.withInfl { w with ipos := w.ipos + n }) :=
  Machine.engineStep_element (h.inflating w)
    (by rw [State.memRead_withInfl, State.withInfl_src, State.withInfl_slen, h.stream]; exact hbits) hpos hlen hn hdec

theorem header_step (h : HoldsStored s data) : engineStep (s.withInfl Infl.start) = .next (s.withInfl afterStoredHeader) := by
  have hbits : [] ++ encode storedHeader <+: streamBits (storedStream data) := by
    simp only [streamBits_storedStream, List.append_assoc, List.nil_append, List.prefix_append]
  rw [h.engineStep_element (w := Infl.start) (n := 16) hbits rfl rfl (by decide)
    fun rest => decodeOfEncodeIsTheInstruction storedHeader rest rfl]
  obtain ⟨-, -, -, -, -, hjudged⟩ := zlibHeaderIsJudged
  obtain ⟨-, -, haccepted⟩ := hjudged _ _ 7#4 0#2 false 1#5 (h.inflating { Infl.start with ipos := 16 })
  exact haccepted (by decide) (by decide) rfl

theorem block_step (h : HoldsStored s data) :
    engineStep (s.withInfl afterStoredHeader) = .next (s.withInfl afterStoredBlock) := by
  have hbits : encode storedHeader ++ encode (.blockStored true) <+: streamBits (storedStream data) := by
    simp only [streamBits_storedStream, List.append_assoc, List.prefix_append_right_inj, List.prefix_append]
  rw [h.engineStep_element (w := afterStoredHeader) (n := 3) hbits rfl rfl (by decide)
    fun rest => decodeOfEncodeIsTheInstruction (.blockStored true) rest rfl]
  obtain ⟨-, -, hbody⟩ := blockHeadersSelectTheirBody
  obtain ⟨hstored, -⟩ := hbody _ _ true (h.inflating { afterStoredHeader with ipos := 19 })
  exact hstored

/-- `LEN` and `NLEN` with the padding before them. -/
theorem storedLenOf_length (n : Nat) : (List.replicate 5 false ++ encode (storedLenOf n)).length = 37 := by
  rw [List.length_append, List.length_replicate, storedLenOf, Laws.EncodedLength.storedLen]
  rfl

/-- The data are read from the eighth byte of the source region. -/
theorem memRead_data (h : HoldsStored s data) : s.memRead (s.src.toNat + 7) data.length = data := by
  have hslen := h.slen
  rw [← State.memRead_drop_take s _ 7 data.length s.slen.toNat (by omega), h.stream, storedStream_data]

theorem data_step (h : HoldsStored s data) :
    engineStep (s.withInfl afterStoredBlock) = .next (s.withInfl (afterStoredData data)) := by
  obtain ⟨-, -, -, -, hshort, hslen, hdcap, -⟩ := id h
  let w : Infl := { afterStoredBlock with ipos := 56 }
  have hbits : encode storedHeader ++ encode (.blockStored true)
      ++ (List.replicate 5 false ++ encode (storedLenOf data.length)) <+: streamBits (storedStream data) := by
    simp only [streamBits_storedStream, List.append_assoc, List.prefix_append_right_inj, List.prefix_append]
  have hn : (BitVec.ofNat 16 data.length).toNat = data.length := by rw [BitVec.toNat_ofNat, Nat.mod_eq_of_lt hshort]
  have hthere : 8 * (BitVec.ofNat 16 data.length).toNat ≤ 8 * s.slen.toNat - 56 := by omega
  have hroom : 0 + (BitVec.ofNat 16 data.length).toNat ≤ s.dcap.toNat := by omega
  have hcopy := exec_storedLen_ok (h.inflating w) (w.grownTo_counted []) (storedLen_complement hshort) hthere hroom
  have hdata : (s.withInfl w).memRead ((s.withInfl w).src.toNat + w.ipos / 8) data.length = data := by
    rw [State.memRead_withInfl]
    show s.memRead (s.src.toNat + 56 / 8) data.length = data
    exact h.memRead_data
  rw [hn, hdata] at hcopy
  rw [h.engineStep_element (w := afterStoredBlock) hbits rfl (storedLenOf_length _) (by decide)
    fun rest => decodeOfEncodeIsTheInstruction (storedLenOf data.length) rest rfl]
  exact hcopy

/-- The bits of the stream before the trailer. -/
def beforeTrailer (data : List Byte) : Bits :=
  encode storedHeader ++ encode (.blockStored true) ++ (List.replicate 5 false ++ encode (storedLenOf data.length))
    ++ streamBits data

theorem beforeTrailer_length (data : List Byte) : (beforeTrailer data).length = 56 + 8 * data.length := by
  rw [beforeTrailer, List.length_append, List.length_append, storedLenOf_length, streamBits_length]
  rfl

theorem trailer_step (h : HoldsStored s data) :
    engineStep (s.withInfl (afterStoredData data)) = .next (s.inflateDone (afterStoredTrailer data)) := by
  have hbits : beforeTrailer data ++ encode (trailerOf data) <+: streamBits (storedStream data) := by
    rw [streamBits_storedStream]
    exact List.prefix_rfl
  have hdec (rest : Bits) :
      (afterStoredData data).decodeNext (encode (trailerOf data) ++ rest) = .ok (trailerOf data, rest) := by
    have haligned : padding (56 + 8 * data.length) = 0 := by unfold padding; omega
    show decode .zlibTrailer (List.drop (padding (56 + 8 * data.length)) _) = _
    rw [haligned]
    exact decodeOfEncodeIsTheInstruction (trailerOf data) rest rfl
  have hend : { afterStoredData data with ipos := (afterStoredData data).ipos + 32 } = afterStoredTrailer data := by
    show { afterStoredData data with ipos := 56 + 8 * data.length + 32 } = _
    rw [Nat.add_right_comm]
    rfl
  have hchecksum : (BitVec.ofNat 32 (adler32 data)).toNat = adler32 data := by
    rw [BitVec.toNat_ofNat, Nat.mod_eq_of_lt (adler32_lt data)]
  rw [h.engineStep_element (n := 32) hbits (beforeTrailer_length data) (Laws.EncodedLength.zlibTrailer _) (by decide) hdec]
  exact hend ▸ exec_zlibTrailer_done (h.inflating _) hchecksum

theorem start_step (h : HoldsStored s data) (hidle : s.engine = .idle) (hcmd : s.cmd = 0x00000004#32) :
    engineStep s = .next (s.withInfl Infl.start) := by
  rw [engineStep_command hidle, hcmd]
  exact exec_inflate_starts h.src h.dst h.overlap

end HoldsStored

/-- Settles O46: the five internal steps, and then the success of INFLATE. -/
theorem inflateReturnsTheStoredData : Obligations.InflateReturnsTheStoredData := by
  intro s data hstatus hturns hidle hcmd hshort hslen hdcap hsrc hdst hoverlap hstream
  have h : HoldsStored s data :=
    { status := hstatus, src := (s.holds_iff _).2 hsrc, dst := (s.holds_iff _).2 hdst, short := hshort, slen := hslen,
      dcap := hdcap, stream := hstream
      overlap := (Region.not_overlaps_iff _ _).2 (by
        rcases hoverlap with h0 | h1 | h2
        · exact .inl h0
        · exact .inr (.inr (.inl h1))
        · exact .inr (.inr (.inr h2))) }
  let t := s.inflateDone (afterStoredTrailer data)
  have hbusy : s.status.busy = true := by rw [hstatus]; rfl
  have hdone : t.status.busy = false := by rw [State.inflateDone_status, hstatus]; rfl
  have hbusy' (w : Infl) : (s.withInfl w).status.busy = true := hbusy
  have hsame : { s with turns := [] } = s := by rw [← hturns]
  refine ⟨t, ?_, ?_, ?_, ?_, ?_⟩
  · have hbound : s.internalBound = s.internalBound - 5 + 1 + 1 + 1 + 1 + 1 := by unfold State.internalBound; omega
    have hrun : runCommand s.internalBound s = .next t := by
      rw [hbound, runCommand_succ _ _ _ hbusy (h.start_step hidle hcmd), runCommand_succ _ _ _ (hbusy' _) h.header_step,
        runCommand_succ _ _ _ (hbusy' _) h.block_step, runCommand_succ _ _ _ (hbusy' _) h.data_step,
        runCommand_succ _ _ _ (hbusy' _) h.trailer_step, runCommand_done _ _ hdone]
    refine (step_engine (s := { s with turns := [.engine] }) hbusy rfl).trans ?_
    show engineMove { s with turns := [] } = _
    rw [hsame, engineMove, hsame, hrun]
    exact congrArg Host.Outcome.next (by rw [← show t.turns = s.turns from rfl])
  · have hstep (w : Infl) : step (s.withInfl w) = engineStep (s.withInfl w) := step_alone hbusy hturns
    rw [runEngine_succ 4 ((step_alone hbusy hturns).trans (h.start_step hidle hcmd)),
      runEngine_succ 3 ((hstep _).trans h.header_step), runEngine_succ 2 ((hstep _).trans h.block_step),
      runEngine_succ 1 ((hstep _).trans h.data_step), runEngine_succ 0 ((hstep _).trans h.trailer_step)]
    rfl
  · have hout : (afterStoredTrailer data).out = data := List.reverse_reverse data
    rw [← hout]
    exact s.inflateDone_succeedsWriting hstatus (afterStoredBlock.grownTo_counted data) hdcap
  · apply BitVec.eq_of_toNat_eq
    have hlt := s.slen.isLt
    show (BitVec.ofNat 32 ((88 + 8 * data.length) / 8)).toNat = _
    rw [BitVec.toNat_ofNat]
    omega
  · show (BitVec.ofNat 32 (adler32 data)).toNat = _
    rw [BitVec.toNat_ofNat, Nat.mod_eq_of_lt (adler32_lt data)]

end Sys2Proof.Machine
end

section
/-! PROOF. What the engine executes in each state of the command in `CMD` (40_command_protocol.md R126, R131, R133): one lemma
for each kind of fetch, from which the internal steps of all later proofs start. -/

namespace Sys2Proof.Machine

/-- The working state whose cursor has moved past an element, `rest` being the bits of the window after it (R107). -/
def State.pastElement (s : State) (w : Infl) (rest : Bits) : Infl :=
  { w with ipos := w.ipos + ((s.window w.ipos).length - rest.length) }

theorem State.inflRegionsValid_iff (s : State) :
    s.inflRegionsValid = true ↔ s.holds s.srcRegion = true ∧ s.holds s.dstRegion = true :=
  Bool.and_eq_true_iff

/-- The internal step of an INFLATE executes the element at the cursor, the cursor having moved past it (R133). -/
theorem engineStep_reads {s : State} {w : Infl} {i : Instr} {rest : Bits} (he : s.engine = .infl w)
    (hv : s.inflRegionsValid = true) (hdec : w.decodeNext (s.window w.ipos) = .ok (i, rest)) :
    engineStep s = exec i (s.withInfl (s.pastElement w rest)) := by
  simp only [engineStep, fetch, he, fetchElement, hv, if_true, hdec]
  rfl

/-- Bits that are no element complete an INFLATE with their error (R172, R174). -/
theorem engineStep_rejects {s : State} {w : Infl} {e : Reject} (he : s.engine = .infl w)
    (hv : s.inflRegionsValid = true) (hdec : w.decodeNext (s.window w.ipos) = .error e) :
    engineStep s = .next (s.raiseData s.dstRegion e.err) := by
  simp only [engineStep, fetch, he, fetchElement, hv, if_true, hdec]

/-- The internal step of a DEFILTER executes the filter-type byte of the current row (R158). -/
theorem engineStep_row {s : State} {f : Filt} (he : s.engine = .filt f) (hrow : f.row < f.height)
    (hsrc : s.holds (s.filtSource f) = true) : engineStep s = exec (decodeFilterByte (s.byteAt (s.rowAddr f))) s := by
  simp [engineStep, fetch, he, fetchRow, hrow, hsrc]

/-- A code-length symbol is its code and then its extra bits, but symbol 16 with nothing before it is found first (R184). -/
theorem decodeCodeLength_eq (t : CodeSet) (first : Bool) (bs : Bits) :
    (∀ e, huffmanDecode t bs = .error e → decodeCodeLength t first bs = .error e)
      ∧ (∀ rest, huffmanDecode t bs = .ok (16, rest) → first = true → decodeCodeLength t first bs = .error .nothingToRepeat)
      ∧ ∀ sym rest, huffmanDecode t bs = .ok (sym, rest) → sym ≠ 16 ∨ first = false →
          decodeCodeLength t first bs = decodeClSymbol sym rest := by
  refine ⟨fun e h => ?_, fun rest h hfirst => ?_, fun sym rest h hrepeat => ?_⟩
  · simp [decodeCodeLength, h]
  · simp [decodeCodeLength, h, hfirst]
  · rcases hrepeat with hsym | hfirst
    · simp [decodeCodeLength, h, hsym]
    · simp [decodeCodeLength, h, hfirst]

/-- A literal/length symbol of a dynamic block is its code and then its extra bits (R193). -/
theorem decodeLitLen_eq (t : CodeSet) (bs : Bits) :
    (∀ e, huffmanDecode t bs = .error e → decodeLitLen t bs = .error e)
      ∧ ∀ sym rest, huffmanDecode t bs = .ok (sym, rest) → decodeLitLen t bs = decodeLitLenSymbol sym rest := by
  constructor <;> intros <;> simp [decodeLitLen, *]

/-- A distance symbol of a dynamic block is its code and then its extra bits (R200). -/
theorem decodeDist_eq (t : CodeSet) (bs : Bits) :
    (∀ e, huffmanDecode t bs = .error e → decodeDist t bs = .error e)
      ∧ ∀ d rest, huffmanDecode t bs = .ok (d, rest) → decodeDist t bs = decodeDistSymbol d rest := by
  constructor <;> intros <;> simp [decodeDist, *]

/-- Settles O1: the three kinds of fetch, and the decoder of each phase read off `Infl.decodeNext`. -/
theorem stepRunsTheDecodedInstruction : Obligations.StepRunsTheDecodedInstruction := by
  intro s hbusy hturns
  rw [step_alone hbusy hturns]
  refine ⟨engineStep_command, fun w he hsrc hdst => ?_, fun f he hrow hsrc => engineStep_row he hrow hsrc, fun w bs => ?_,
    rfl, rfl, rfl, rfl⟩
  · have hv : s.inflRegionsValid = true := s.inflRegionsValid_iff.2 ⟨hsrc, hdst⟩
    exact ⟨fun i rest => engineStep_reads he hv,
      fun hstatus e hdec => ⟨_, engineStep_rejects he hv hdec, s.raiseData_spec _ _ hstatus⟩⟩
  · obtain ⟨ipos, hist, count, s1, s2, final, phase, fixed, nlen, ndist, ncl, lens, cl, ll, dd, sym, length, dsym⟩ := w
    obtain ⟨hclError, hclRepeat, hclSymbol⟩ := decodeCodeLength_eq cl lens.isEmpty bs
    refine ⟨?_, ?_, ?_, ?_, ?_, ?_, ?_, ?_, ?_, ?_, ?_, ?_, ?_⟩
    case refine_6 =>
      rintro rfl
      refine ⟨hclError, fun rest h hlens => hclRepeat rest h (List.isEmpty_iff.2 hlens), fun sym rest h hrepeat => ?_⟩
      exact hclSymbol sym rest h (hrepeat.imp_right fun hlens => by simpa using hlens)
    case refine_8 =>
      rintro rfl rfl
      exact decodeLitLen_eq ll bs
    case refine_11 =>
      rintro rfl rfl
      exact decodeDist_eq dd bs
    all_goals
      intros
      subst_vars
      rfl

/-- Settles O13: NOP is the completion, from the `STATUS` issue leaves. -/
theorem nopCompletesAndTouchesNothing : Obligations.NopCompletesAndTouchesNothing := by
  intro s hstatus
  show Host.Outcome.next (s.succeed 0) = _
  simp [State.succeed, hstatus]

end Sys2Proof.Machine
end

section
/-! PROOF. The host's accesses that the spec gives a meaning (40_command_protocol.md R121 to R125, 10_state.md R21, R34, R36,
20_memory.md R64, R77): what the access to each register and each byte of `BUF` does. -/

namespace Sys2Proof.Machine

/-! ## Registers -/

/-- An aligned access at `REG_BASE + 4 * i` names index `i` (R21). -/
theorem Params.regIndex?_at (p : Params) (i : Nat) : Params.regIndex? p (p.regBase + 4 * i) 4 = some i := by
  simp [Params.regIndex?]

/-- An access at `BUF_BASE + a` inside `BUF` names the byte at `a` (R64). -/
theorem Params.bufIndex?_at {p : Params} {a : Nat} (h : a < p.bufSize) : Params.bufIndex? p (p.bufBase + a) = some a := by
  simp [Params.bufIndex?, h]

theorem step_regWrite {s : State} {i : Nat} {v : Word} {ts : List Turn}
    (h : s.turns = .host (.regWrite (s.params.regBase + 4 * i) 4 v) :: ts) :
    step s = .next ({ s with turns := ts }.writeRegister i v) := by
  rw [step_host s _ ts h]
  simp [hostMove, Params.regIndex?_at]

theorem step_regRead {s : State} {i : Nat} {ts : List Turn}
    (h : s.turns = .host (.regRead (s.params.regBase + 4 * i) 4) :: ts) :
    step s = .next ({ s with turns := ts }.observe (s.register i)) := by
  rw [step_host s _ ts h]
  simp only [hostMove, Params.regIndex?_at]
  rfl

theorem step_bufWrite {s : State} {a : Nat} {b : Byte} {ts : List Turn} (ha : a < s.params.bufSize)
    (h : s.turns = .host (.bufWrite (s.params.bufBase + a) b) :: ts) :
    step s = .next ({ s with turns := ts }.writeBuffer a b) := by
  rw [step_host s _ ts h]
  simp [hostMove, Params.bufIndex?_at ha]

theorem step_bufRead {s : State} {a : Nat} {ts : List Turn} (ha : a < s.params.bufSize)
    (h : s.turns = .host (.bufRead (s.params.bufBase + a)) :: ts) :
    step s = .next ({ s with turns := ts }.readBuffer a) := by
  rw [step_host s _ ts h]
  simp [hostMove, Params.bufIndex?_at ha]

/-- A register write while `BUSY = 1` is ignored (R36, R125). -/
theorem State.writeRegister_busy {s : State} (h : s.status.busy = true) (i : Nat) (v : Word) : s.writeRegister i v = s :=
  if_pos h

theorem State.writeRegister_idle {s : State} (h : s.status.busy = false) (i : Nat) (v : Word) :
    s.writeRegister i v = s.writeIdle i v :=
  if_neg (by simp [h])

/-- A write to `BUF` while `BUSY = 1` is ignored (R77, R123). -/
theorem State.writeBuffer_busy {s : State} (h : s.status.busy = true) (a : Nat) (b : Byte) : s.writeBuffer a b = s :=
  if_pos h

/-- A write to an index that is neither `CMD` nor an `RW` register has no effect (R34, R121). -/
theorem State.writeIdle_readOnly (s : State) {i : Nat} (v : Word)
    (h : i ∉ [0, 2, 3, 4, 5, 8, 9, 10, 11, 13, 14, 15, 16]) : s.writeIdle i v = s := by
  simp only [List.mem_cons, List.not_mem_nil, or_false, not_or] at h
  unfold State.writeIdle
  split
  case h_14 => rfl
  all_goals omega

/-- A register write while `BUSY = 1` only uses up its turn (R36, R125). -/
theorem step_regWrite_busy {s : State} {i : Nat} {v : Word} {ts : List Turn} (hbusy : s.status.busy = true)
    (h : s.turns = .host (.regWrite (s.params.regBase + 4 * i) 4 v) :: ts) : step s = .next { s with turns := ts } := by
  rw [step_regWrite h, State.writeRegister_busy (s := { s with turns := ts }) hbusy]

theorem step_regWrite_idle {s : State} {i : Nat} {v : Word} {ts : List Turn} (hbusy : s.status.busy = false)
    (h : s.turns = .host (.regWrite (s.params.regBase + 4 * i) 4 v) :: ts) :
    step s = .next ({ s with turns := ts }.writeIdle i v) := by
  rw [step_regWrite h, State.writeRegister_idle (s := { s with turns := ts }) hbusy]

/-- Settles O4: both writes are ignored while `BUSY = 1`. -/
theorem writesWhileBusyAreIgnored : Obligations.WritesWhileBusyAreIgnored := by
  refine fun s ts hbusy => ⟨fun i v h => step_regWrite_busy hbusy h, fun a b ha h => ?_⟩
  rw [step_bufWrite ha h, State.writeBuffer_busy (s := { s with turns := ts }) hbusy]

/-- Settles O5: `writeRegister` is ignored while `BUSY = 1` and otherwise `writeIdle`, whose cases are the indices of R21. -/
theorem registerWriteStoresOnlyItsRegister : Obligations.RegisterWriteStoresOnlyItsRegister := by
  intro s i v ts h
  refine ⟨fun hbusy => step_regWrite_busy hbusy h, fun hbusy hi => ?_, fun hbusy t ht => ?_, fun hbusy hi => ?_⟩
  · subst hi
    exact step_regWrite_idle hbusy h
  · rw [step_regWrite_idle hbusy h]
    simp only [List.mem_cons, Prod.mk.injEq, List.not_mem_nil, or_false] at ht
    rcases ht with ⟨rfl, rfl⟩ | ⟨rfl, rfl⟩ | ⟨rfl, rfl⟩ | ⟨rfl, rfl⟩ | ⟨rfl, rfl⟩ | ⟨rfl, rfl⟩ | ⟨rfl, rfl⟩ | ⟨rfl, rfl⟩
      | ⟨rfl, rfl⟩ | ⟨rfl, rfl⟩ | ⟨rfl, rfl⟩ | ⟨rfl, rfl⟩ <;> rfl
  · rw [step_regWrite_idle hbusy h, State.writeIdle_readOnly _ v hi]

/-- An index from 17 up is unassigned (R34). -/
theorem State.register_unassigned (s : State) {i : Nat} (h : 17 ≤ i) : s.register i = 0#32 := by
  unfold State.register
  split
  case h_18 => rfl
  all_goals omega

/-- Settles O6: a read observes `register`, whose cases are the indices of R21. -/
theorem registerReadChangesNothing : Obligations.RegisterReadChangesNothing := by
  intro s i v ts h hv
  have hregister : s.register i = v := by
    simp only [List.mem_cons, Prod.mk.injEq, List.not_mem_nil, or_false] at hv
    rcases hv with hv | ⟨hi, rfl⟩
    · rcases hv with ⟨rfl, rfl⟩ | ⟨rfl, rfl⟩ | ⟨rfl, rfl⟩ | ⟨rfl, rfl⟩ | ⟨rfl, rfl⟩ | ⟨rfl, rfl⟩ | ⟨rfl, rfl⟩ | ⟨rfl, rfl⟩
        | ⟨rfl, rfl⟩ | ⟨rfl, rfl⟩ | ⟨rfl, rfl⟩ | ⟨rfl, rfl⟩ | ⟨rfl, rfl⟩ | ⟨rfl, rfl⟩ | ⟨rfl, rfl⟩ | ⟨rfl, rfl⟩
        | ⟨rfl, rfl⟩ <;> rfl
    · exact s.register_unassigned hi
  rw [step_regRead h, hregister]
  exact ⟨rfl, rfl⟩

/-! ## BUF -/

/-- A byte lies in the destination region of the command (R77). -/
theorem State.inDestination_iff {s : State} {r : Region} (h : s.destination? = some r) (a : Nat) :
    s.inDestination a = true ↔ r.addr ≤ a ∧ a < r.addr + r.len := by
  simp [State.inDestination, h]

/-- Only INFLATE, DEFILTER and MODEXP have a destination region (R130). -/
theorem State.destination?_none {s : State} (h : s.cmd ∉ [0x00000003#32, 0x00000004#32, 0x00000005#32]) :
    s.destination? = none := by
  cases hlegal : legalWord s.cmd with
  | false => simp [State.destination?, decodeCommand_of_not_legal hlegal]
  | true =>
    simp only [List.mem_cons, List.not_mem_nil, or_false, not_or] at h
    obtain ⟨h3, h4, h5⟩ := h
    rcases eq_of_legalWord hlegal with hc | hc | hc | hc | hc | hc | hc
    case inr.inr.inr.inr.inl => exact absurd hc h3
    case inr.inr.inr.inr.inr.inl => exact absurd hc h4
    case inr.inr.inr.inr.inr.inr => exact absurd hc h5
    all_goals simp [State.destination?, hc, decodeCommand]

/-- The destination region of a DEFILTER whose colour type has bytes per pixel (R130, R44). -/
theorem State.destination?_defilter {s : State} {bpp : Nat} (hcmd : decodeCommand s.cmd = .defilter)
    (hbpp : bytesPerPixel s.colorType = some bpp) : s.destination? = some (s.pixelRegion bpp) := by
  simp [State.destination?, hcmd, hbpp]

/-- R44's table. -/
theorem bytesPerPixel_of_mem {ct bpp : Nat} (h : (ct, bpp) ∈ [(0, 1), (2, 3), (3, 1), (4, 2), (6, 4)]) :
    bytesPerPixel ct = some bpp := by
  simp only [List.mem_cons, Prod.mk.injEq, List.not_mem_nil, or_false] at h
  rcases h with ⟨rfl, rfl⟩ | ⟨rfl, rfl⟩ | ⟨rfl, rfl⟩ | ⟨rfl, rfl⟩ | ⟨rfl, rfl⟩ <;> rfl

/-- A byte write while `BUSY = 0` sets that byte and no other (R123). -/
theorem State.writeBuffer_idle {s : State} (h : s.status.busy = false) (a : Nat) (b : Byte) :
    s.writeBuffer a b = s.memWrite a [b] :=
  if_neg (by simp [h])

/-- A read outside the destination of a running command answers the byte (R123). -/
theorem State.readBuffer_stable {s : State} {a : Nat} (h : s.status.busy = false ∨ s.inDestination a = false) :
    s.readBuffer a = s.observe ((s.byteAt a).setWidth 32) :=
  if_neg (by simpa [or_iff_not_imp_left] using h)

/-- A read inside it draws a free byte (R77, log 4). -/
theorem State.readBuffer_unstable {s : State} {a : Nat} (hbusy : s.status.busy = true) (hin : s.inDestination a = true) :
    s.readBuffer a = { s with draws := s.draws + 1 }.observe ((Config.freeByte s.draws).setWidth 32) :=
  if_pos (by simp [hbusy, hin])

/-- Settles O7: the region by the command in `CMD`, the write by the two lemmas on `memWrite`, the read by the branches of
`readBuffer`. -/
theorem bufferAccessesReachOneByte : Obligations.BufferAccessesReachOneByte := by
  refine ⟨fun s a => ⟨fun hcmd => ?_, fun hcmd bpp hbpp => ?_, fun hcmd => ?_⟩,
    fun s a ts ha => ⟨fun b hbusy h => ?_, fun h => ⟨fun hstable => ?_, fun hbusy hin => ?_⟩⟩⟩
  · rcases hcmd with hcmd | hcmd
    · exact State.inDestination_iff (State.destination?_inflate (by rw [hcmd]; rfl)) a
    · exact State.inDestination_iff (State.destination?_modexp (by rw [hcmd]; rfl)) a
  · have hct : s.colorType = s.imgFmt.toNat % 2 ^ 8 := by simp [State.colorType, field]
    exact State.inDestination_iff
      (State.destination?_defilter (by rw [hcmd]; rfl) (hct ▸ bytesPerPixel_of_mem hbpp)) a
  · simp [State.inDestination, State.destination?_none hcmd]
  · rw [step_bufWrite ha h, State.writeBuffer_idle (s := { s with turns := ts }) hbusy]
    refine ⟨_, rfl, ?_, fun k hk => ?_, rfl⟩
    · exact State.byteAt_memWrite_inside { s with turns := ts } a [b] 0 Nat.zero_lt_one
    · exact State.byteAt_memWrite_outside { s with turns := ts } a [b] k (by simp only [List.length_singleton]; omega)
  · rw [step_bufRead ha h, State.readBuffer_stable (s := { s with turns := ts }) hstable]
    rfl
  · rw [step_bufRead ha h, State.readBuffer_unstable (s := { s with turns := ts }) hbusy hin]
    rfl

/-! ## Issue -/

/-- A move of the host while `BUSY = 1` changes no register (R36, R77). -/
theorem HostEffect.register_of_busy {s t : State} (h : HostEffect s t) (hbusy : s.status.busy = true) (i : Nat) :
    t.register i = s.register i := by
  cases h with
  | regWritten j v => rw [State.writeRegister_busy hbusy]
  | regRead j => rfl
  | bufWritten a b _ => rw [State.writeBuffer_busy hbusy]
  | bufRead a _ =>
    obtain ⟨n, v, heq⟩ := s.readBuffer_eq a
    rw [heq]
    rfl

/-- A command that goes on has changed no register (R60). -/
theorem CommandEffect.register_of_busy {s t : State} (h : CommandEffect s t) (ht : t.status.busy = true) (i : Nat) :
    t.register i = s.register i := by
  obtain ⟨e, rfl⟩ := h.eq_of_busy ht
  rfl

/-- A `WAIT` gives a busy engine its move and keeps its own turn (R114). -/
theorem step_wait {s : State} {ts : List Turn} (hbusy : s.status.busy = true) (hturns : s.turns = .wait :: ts) :
    step s = engineMove s := by
  simp [step, hturns, hbusy]

/-- A step of a command in flight that does not complete it changes no register (R60, R124). -/
theorem step_register_of_busy {s t : State} (hs : s.Coherent) (hbusy : s.status.busy = true) (h : step s = .next t)
    (ht : t.status.busy = true) (i : Nat) : t.register i = s.register i := by
  cases hturns : s.turns with
  | nil => exact (engineStep_commandEffect hs hbusy (step_alone hbusy hturns ▸ h)).register_of_busy ht i
  | cons turn ts =>
    cases turn with
    | host m =>
      rw [step_host s m ts hturns] at h
      exact (hostMove_effect h).register_of_busy hbusy i
    | engine =>
      obtain ⟨e, heffect⟩ := engineMove_commandEffect (s := { s with turns := ts }) hs (step_engine hbusy hturns ▸ h)
      exact heffect.register_of_busy ht i
    | wait =>
      obtain ⟨e, heffect⟩ := engineMove_commandEffect hs (step_wait hbusy hturns ▸ h)
      exact heffect.register_of_busy ht i
    | reset =>
      rw [step, hturns] at h
      cases h
      cases ht

/-- Settles O3: the write to `CMD` is `issue`, and a step that leaves the command running leaves the registers. -/
theorem issueStoresTheWordAndSetsBusy : Obligations.IssueStoresTheWordAndSetsBusy := by
  refine ⟨fun s v ts hbusy hturns => ?_, fun s t hs hbusy h ht i => step_register_of_busy hs hbusy h ht i⟩
  rw [step_host s _ ts hturns]
  exact hostMove_issue (s := { s with turns := ts }) v hbusy

end Sys2Proof.Machine
end

section
/-! PROOF. No step from a coherent state stops (40_command_protocol.md R132). An element of a stream is an operation on the
working state, and a command word and a filter-type byte answer a next state too, so the engine is never stuck; the host's moves
stop only at the accesses the spec puts outside itself (10_state.md R35, 20_memory.md R64). -/

namespace Sys2Proof.Machine

/-! ## The operation of an element -/

/-- All that an INFLATE reads of the state beside its working state: `SLEN`, `DCAP` and the source bytes (R171, R204). -/
structure State.SameSource (s s' : State) : Prop where
  slen : s.slen = s'.slen
  dcap : s.dcap = s'.dcap
  bytes : s.memRead s.src.toNat s.slen.toNat = s'.memRead s'.src.toNat s'.slen.toNat

/-- Two states with the same source hold the same byte at each place of it. -/
theorem State.SameSource.byteAt_eq {s s' : State} (h : s.SameSource s') {k : Nat} (hk : k < s.slen.toNat) :
    s.byteAt (s.src.toNat + k) = s'.byteAt (s'.src.toNat + k) := by
  have hbyte : (s.memRead s.src.toNat s.slen.toNat)[k]? = (s'.memRead s'.src.toNat s'.slen.toNat)[k]? := by rw [h.bytes]
  rw [State.memRead_getElem?, State.memRead_getElem?, if_pos hk, if_pos (h.slen ▸ hk)] at hbyte
  exact Option.some.inj hbyte

/-- A stored block copies bytes of the source (R180). -/
theorem copyStored_congr {s s' : State} (h : s.SameSource s') (n : Nat) (w : Infl) :
    copyStored s n w = copyStored s' n w := by
  induction n generalizing w with
  | zero => rfl
  | succ n ih =>
    unfold copyStored
    rw [← h.slen, ← h.dcap]
    split
    · rfl
    · next hthere => simp only [h.byteAt_eq (k := w.ipos / 8) (by omega), ih]

/-- An element whose meaning is an operation on the working state of the INFLATE in flight. The operation depends on the source
alone and moves no cursor back; `Effect` does not say the latter of an element, because a command word may start an INFLATE. -/
def Instr.Operates (i : Instr) : Prop :=
  ∃ k : State → Infl → Except Err Infl, (∀ s, exec i s = inflating s (k s))
    ∧ (∀ s s' w, s.SameSource s' → k s w = k s' w) ∧ ∀ (s : State) (w w' : Infl), k s w = .ok w' → w.Advances s w'

/-- An element whose operation does not look at the state. -/
theorem operates_of_exec {i : Instr} {k : Infl → Except Err Infl} (h : ∀ s, exec i s = inflating s k)
    (hk : ∀ (s : State) (w w' : Infl), k w = .ok w' → w.Advances s w') : Instr.Operates i :=
  ⟨fun _ => k, h, fun _ _ _ _ => rfl, hk⟩

/-- An element that sets fields of the working state other than the output and the cursor. -/
theorem operates_of_sets {i : Instr} {f : Infl → Infl} (h : ∀ s, exec i s = inflating s fun w => .ok (f w))
    (hf : ∀ (s : State) (w : Infl), w.Advances s (f w)) : Instr.Operates i :=
  operates_of_exec h fun s w _ hw => by cases hw; exact hf s w

/-- An element that is an error (R179, R199, R201). -/
theorem operates_of_fails {i : Instr} {e : Err} (h : ∀ s, exec i s = inflating s fun _ => .error e) : Instr.Operates i :=
  operates_of_exec h fun _ _ _ hw => by cases hw

/-- A distance symbol looks at the capacity only (R203, R204). -/
theorem operates_of_distance {i : Instr} {dist : Nat} (h : ∀ s, exec i s = distanceSymbol dist s) : Instr.Operates i := by
  refine ⟨_, h, fun s s' w hsource => by simp only [hsource.dcap], fun s w w' hw => ?_⟩
  split at hw
  · cases hw
  split at hw
  · next hcopy =>
    cases hw
    exact (copyBack_advances _ hcopy).trans (.of_same rfl rfl rfl rfl rfl)
  · cases hw

theorem operates_literal (b : Byte) : Instr.Operates (.literal b) := by
  refine ⟨_, fun _ => rfl, fun s s' w hsource => by simp only [hsource.dcap], fun s w w' hw => ?_⟩
  split at hw
  · next hemit =>
    cases hw
    exact (Infl.emit_advances hemit).trans (.of_same rfl rfl rfl rfl rfl)
  · cases hw

theorem operates_storedLen (len nlen : BitVec 16) : Instr.Operates (.storedLen len nlen) := by
  refine ⟨_, fun _ => rfl, fun s s' w hsource => by simp only [copyStored_congr hsource], fun s w w' hw => ?_⟩
  split at hw
  · cases hw
  split at hw
  · next hcopy =>
    cases hw
    exact (copyStored_advances _ hcopy).trans (Infl.endBlock_advances _ _)
  · cases hw

theorem operates_zlibHeader (cinfo : BitVec 4) (flevel : BitVec 2) (fdict : Bool) (fcheck : BitVec 5) :
    Instr.Operates (.zlibHeader cinfo flevel fdict fcheck) :=
  operates_of_exec (fun _ => rfl) fun s w w' hw => by
    repeat' split at hw
    all_goals cases hw
    exact .of_same rfl rfl rfl rfl rfl

theorem operates_dynCounts (hlit hdist : BitVec 5) (hclen : BitVec 4) : Instr.Operates (.dynCounts hlit hdist hclen) :=
  operates_of_exec (fun _ => rfl) fun s w w' hw => by
    split at hw <;> cases hw
    exact .of_same rfl rfl rfl rfl rfl

theorem operates_dynClLens (fields : List (BitVec 3)) : Instr.Operates (.dynClLens fields) :=
  operates_of_exec (fun _ => rfl) fun s w w' hw => by
    split at hw <;> cases hw
    exact .of_same rfl rfl rfl rfl rfl

theorem operates_clRepeatPrev (extra : BitVec 2) : Instr.Operates (.clRepeatPrev extra) :=
  operates_of_exec (fun _ => rfl) fun s w w' hw => by
    split at hw
    · cases hw
    · exact Infl.addLengths_advances hw

/-- An element of a stream other than the trailer operates on the working state. -/
theorem operates_of_element {i : Instr} (hcmd : i.format ≠ .cmdWord) (hfilter : i.format ≠ .filterByte)
    (htrailer : i.format ≠ .zlibTrailer) : Instr.Operates i := by
  cases i with
  | nop | crc32 | crc32Cont | crcCheck | defilter | inflate | modexp | illegalCmd _ => exact absurd rfl hcmd
  | filterNone | filterSub | filterUp | filterAverage | filterPaeth | filterIllegal _ => exact absurd rfl hfilter
  | zlibTrailer _ => exact absurd rfl htrailer
  | zlibHeader cinfo flevel fdict fcheck => exact operates_zlibHeader cinfo flevel fdict fcheck
  | storedLen len nlen => exact operates_storedLen len nlen
  | dynCounts hlit hdist hclen => exact operates_dynCounts hlit hdist hclen
  | dynClLens fields => exact operates_dynClLens fields
  | clRepeatPrev extra => exact operates_clRepeatPrev extra
  | clLen0To15 _ | clZeros3To10 _ | clZeros11To138 _ =>
    exact operates_of_exec (fun _ => rfl) fun _ _ _ hw => Infl.addLengths_advances hw
  | literal b => exact operates_literal b
  | dist0 | dist1 | dist2 | dist3 | dist4 _ | dist5 _ | dist6 _ | dist7 _ | dist8 _ | dist9 _ | dist10 _ | dist11 _ | dist12 _
  | dist13 _ | dist14 _ | dist15 _ | dist16 _ | dist17 _ | dist18 _ | dist19 _ | dist20 _ | dist21 _ | dist22 _ | dist23 _
  | dist24 _ | dist25 _ | dist26 _ | dist27 _ | dist28 _ | dist29 _ => exact operates_of_distance fun _ => rfl
  | blockReserved _ | ll286To287 _ | dist30To31 _ => exact operates_of_fails fun _ => rfl
  | _ => exact operates_of_sets (fun _ => rfl) fun _ _ => .of_same rfl rfl rfl rfl rfl

/-! ## Every instruction answers a next state -/

theorem crcFrom_answers (c : Word) (s : State) : ∃ t, crcFrom c s = .next t := by
  unfold crcFrom
  split <;> exact ⟨_, rfl⟩

theorem execCrcCheck_answers (s : State) : ∃ t, execCrcCheck s = .next t := by
  unfold execCrcCheck
  split <;> exact ⟨_, rfl⟩

theorem execDefilter_answers (s : State) : ∃ t, execDefilter s = .next t := by
  unfold execDefilter
  repeat' split
  all_goals exact ⟨_, rfl⟩

theorem execInflate_answers (s : State) : ∃ t, execInflate s = .next t := by
  unfold execInflate
  repeat' split
  all_goals exact ⟨_, rfl⟩

theorem execModexp_answers (s : State) : ∃ t, execModexp s = .next t := by
  unfold execModexp modexpData
  simp only
  repeat' split
  all_goals exact ⟨_, rfl⟩

/-- A command word answers a next state, whatever the state. -/
theorem exec_command_answers {i : Instr} (hi : i.format = .cmdWord) (s : State) : ∃ t, exec i s = .next t := by
  cases i with
  | nop | illegalCmd _ => exact ⟨_, rfl⟩
  | crc32 | crc32Cont => exact crcFrom_answers _ s
  | crcCheck => exact execCrcCheck_answers s
  | defilter => exact execDefilter_answers s
  | inflate => exact execInflate_answers s
  | modexp => exact execModexp_answers s
  | _ => cases hi

theorem execZlibTrailer_eq {s : State} {w : Infl} (h : s.Inflating w) (a : Word) :
    exec (.zlibTrailer a) s =
      .next (if a.toNat = adlerValue w.s1 w.s2 then s.inflateDone w else s.raiseData s.dstRegion .adler) := by
  obtain ⟨he, hsrc, hdst, -⟩ := h
  show execZlibTrailer a s = _
  simp only [execZlibTrailer, he, s.inflRegionsValid_iff.2 ⟨hsrc, hdst⟩, if_true]
  split <;> rfl

/-- An element of a stream answers a next state while its INFLATE is in flight. -/
theorem exec_element_answers {s : State} {w : Infl} (h : s.Inflating w) {i : Instr} (hcmd : i.format ≠ .cmdWord)
    (hfilter : i.format ≠ .filterByte) : ∃ t, exec i s = .next t := by
  by_cases htrailer : i.format = .zlibTrailer
  · cases i with
    | zlibTrailer a => exact ⟨_, execZlibTrailer_eq h a⟩
    | _ => cases htrailer
  · obtain ⟨k, hk, -, -⟩ := operates_of_element hcmd hfilter htrailer
    exact ⟨_, (hk s).trans (inflating_eq s w _ h)⟩

/-- A filter-type byte answers a next state while its DEFILTER is in flight. -/
theorem exec_filterByte_answers {s : State} {f : Filt} (h : s.Defiltering f) {i : Instr} (hi : i.format = .filterByte) :
    ∃ t, exec i s = .next t := by
  cases i with
  | filterNone | filterSub | filterUp | filterAverage | filterPaeth | filterIllegal _ =>
    exact ⟨_, defiltering_eq s f _ h⟩
  | _ => cases hi

/-! ## Coherent states -/

/-- A coherent INFLATE in flight is one whose elements run. -/
theorem State.Coherent.inflating {s : State} {w : Infl} (hs : s.Coherent) (hbusy : s.status.busy = true)
    (he : s.engine = .infl w) : s.Inflating w := by
  obtain ⟨-, hsrc, hdst, -⟩ := hs.engineCoherent.infl he
  exact ⟨he, hsrc, hdst, hs.status_eq_running hbusy⟩

/-- What the checks of a DEFILTER let through has the length of its scanline stream (R153). -/
theorem State.defilterParams_slen {s : State} {bpp : Nat} (h : s.defilterParams = .ok bpp) :
    s.slen.toNat = scanlineLength s.imgW.toNat s.imgH.toNat bpp := by
  unfold State.defilterParams at h
  repeat' split at h
  all_goals cases h
  next hlen _ => exact not_not.1 hlen

/-- The source region of a DEFILTER in flight is `(SRC, SLEN)` (R109). -/
theorem State.FiltCoherent.filtSource_eq {s : State} {f : Filt} (h : s.FiltCoherent f) : s.filtSource f = s.srcRegion := by
  obtain ⟨-, hparams, hbytes, hheight, -⟩ := h
  simp [State.filtSource, State.srcRegion, State.defilterParams_slen hparams, scanlineLength, hbytes, hheight]

/-- A coherent DEFILTER in flight is one whose filter-type bytes run. -/
theorem State.Coherent.defiltering {s : State} {f : Filt} (hs : s.Coherent) (hbusy : s.status.busy = true)
    (he : s.engine = .filt f) : s.Defiltering f := by
  have hf := hs.engineCoherent.filt he
  have hsource := hf.filtSource_eq
  have hdest := hf.filtDest_eq
  obtain ⟨-, -, -, -, hsrc, hdst, -, hrow, -⟩ := hf
  exact ⟨he, hrow, hsource ▸ hsrc, hdest ▸ hdst, hs.status_eq_running hbusy⟩

theorem Infl.nextFormat_ne_filterByte (w : Infl) : w.nextFormat ≠ .filterByte := by
  unfold Infl.nextFormat
  cases w.phase <;> cases w.fixed <;> simp

/-- A busy engine in a coherent state is never stuck (R132). -/
theorem engineStep_answers {s : State} (hs : s.Coherent) (hbusy : s.status.busy = true) : ∃ t, engineStep s = .next t := by
  cases he : s.engine with
  | idle => exact engineStep_command he ▸ exec_command_answers (decodeCommand_format _) s
  | infl w =>
    have hw := hs.inflating hbusy he
    obtain ⟨-, hsrc, hdst, hstatus⟩ := id hw
    have hv := s.inflRegionsValid_iff.2 ⟨hsrc, hdst⟩
    cases hdec : w.decodeNext (s.window w.ipos) with
    | error e => exact ⟨_, engineStep_rejects he hv hdec⟩
    | ok r =>
      obtain ⟨i, rest⟩ := r
      have hformat := w.decodeNext_reads _ i rest hdec
      have hw' : (s.withInfl (s.pastElement w rest)).Inflating (s.pastElement w rest) := ⟨rfl, hsrc, hdst, hstatus⟩
      rw [engineStep_reads he hv hdec]
      exact exec_element_answers hw' (hformat ▸ w.nextFormat_ne_cmdWord) (hformat ▸ w.nextFormat_ne_filterByte)
  | filt f =>
    have hf := hs.defiltering hbusy he
    obtain ⟨-, hrow, hsrc, -⟩ := id hf
    rw [engineStep_row he hrow hsrc]
    exact exec_filterByte_answers hf (decodeFilterByte_format _)

/-- The engine's move is where its internal steps lead (R126). -/
theorem engineMove_of_runCommand {s u : State} (h : runCommand s.internalBound { s with turns := [] } = .next u) :
    engineMove s = .next { u with turns := s.turns } := by
  simp only [engineMove, h]

theorem engineMove_answers {s : State} (hs : s.Coherent) : ∃ t, engineMove s = .next t := by
  obtain ⟨u, hu, -⟩ := runCommand_next State.Coherent
    (fun s hs hbusy => (engineStep_answers hs hbusy).imp fun t ht => ⟨ht, engineStep_coherent hs hbusy ht⟩)
    s.internalBound { s with turns := [] } hs
  exact ⟨_, engineMove_of_runCommand hu⟩

/-- A host access that the spec gives a meaning is answered (R35, R64). -/
theorem hostMove_answers {s : State} {m : HostMove} {ts : List Turn} (h : s.NextAccessAllowed)
    (hturns : s.turns = .host m :: ts) : ∃ t, hostMove { s with turns := ts } m = .next t := by
  unfold State.NextAccessAllowed at h
  rw [hturns] at h
  cases m with
  | regWrite _ _ _ | regRead _ _ | bufWrite _ _ | bufRead _ =>
    obtain ⟨i, hi⟩ := Option.isSome_iff_exists.1 h
    exact ⟨_, by simp only [hostMove, hi]; rfl⟩

/-- With no turn to come and no command in flight nothing happens (R120). -/
theorem step_alone_idle {s : State} (hbusy : s.status.busy = false) (hturns : s.turns = []) : step s = .next s := by
  simp [step, hturns, engineAlone, hbusy]

/-- Without a command in flight the engine has no move, and a `WAIT` is over (R114, R120). -/
theorem step_engine_idle {s : State} {ts : List Turn} (hbusy : s.status.busy = false)
    (hturns : s.turns = .engine :: ts ∨ s.turns = .wait :: ts) : step s = .next { s with turns := ts } := by
  rcases hturns with hturns | hturns <;> simp [step, hturns, engineTurn, hbusy]

/-- Settles O57: by the agent whose turn is next. -/
theorem coherentStatesNeverStop : Obligations.CoherentStatesNeverStop := by
  intro s hs haccess
  cases hturns : s.turns with
  | nil =>
    cases hbusy : s.status.busy with
    | true => exact step_alone hbusy hturns ▸ engineStep_answers hs hbusy
    | false => exact ⟨s, step_alone_idle hbusy hturns⟩
  | cons turn ts =>
    cases turn with
    | host m => exact step_host s m ts hturns ▸ hostMove_answers haccess hturns
    | engine =>
      cases hbusy : s.status.busy with
      | true => exact step_engine hbusy hturns ▸ engineMove_answers (s := { s with turns := ts }) hs
      | false => exact ⟨_, step_engine_idle hbusy (.inl hturns)⟩
    | wait =>
      cases hbusy : s.status.busy with
      | true => exact step_wait hbusy hturns ▸ engineMove_answers hs
      | false => exact ⟨_, step_engine_idle hbusy (.inr hturns)⟩
    | reset => exact ⟨_, by rw [step, hturns]⟩

end Sys2Proof.Machine
end

section
/-! PROOF. Every command completes (40_command_protocol.md R126, R132). An internal step reads a bit of the stream, uses up a
symbol whose code has been read, or rebuilds a row, so the number of internal steps to come is bounded. -/

namespace Sys2Proof.Machine

/-! ## What an element reads -/

/-- A number of bits that every element of a format occupies (R107). -/
def Format.minBits : Format → Nat
  | .litLenSymbol => 9
  | .clSymbol | .distSymbol => 5
  | .dynClLens ncl => ncl
  | _ => 1

theorem minBits_le_encode (i : Instr) : Format.minBits i.format ≤ (encode i).length := by
  cases i with
  | dynClLens lens =>
    rw [Laws.EncodedLength.dynClLens lens]
    show lens.length ≤ 3 * lens.length
    omega
  | zlibTrailer a =>
    rw [Laws.EncodedLength.zlibTrailer a]
    exact (by decide : 1 ≤ 32)
  | _ => simp [Format.minBits, Instr.format, encode, symbolBits, fieldBits_length, codeBits_length]

/-- The bits a decoder reads are at least those of the format of what it answers. -/
theorem minBits_le_read {f : Format} {bs rest : Bits} {r : Except Reject (Instr × Bits)} {i : Instr} (hspells : Spells bs r)
    (hreads : Reads f r) (h : r = .ok (i, rest)) : Format.minBits f + rest.length ≤ bs.length := by
  have hlen := congrArg List.length (hspells i rest h)
  have hmin := minBits_le_encode i
  rw [hreads i rest h] at hmin
  rw [List.length_append] at hlen
  omega

/-- A Huffman code has a bit at least (R174). -/
theorem huffmanDecode_reads_bit {t : CodeSet} {bs rest : Bits} {sym : Nat} (h : huffmanDecode t bs = .ok (sym, rest)) :
    rest.length < bs.length := by
  obtain ⟨q, rfl, hq, -⟩ := huffmanLoop_ok t.maxLen [] bs h
  have := List.length_pos_iff.2 hq
  rw [List.length_append]
  omega

theorem decodeCodeLength_reads_bit {t : CodeSet} {first : Bool} {bs rest : Bits} {i : Instr}
    (h : decodeCodeLength t first bs = .ok (i, rest)) : rest.length < bs.length := by
  unfold decodeCodeLength at h
  split at h
  · cases h
  next sym mid hcode =>
  split at h
  · cases h
  have hread := minBits_le_read (decodeClSymbol_spells sym mid) (decodeClSymbol_reads sym mid) h
  have hbit := huffmanDecode_reads_bit hcode
  rw [List.length_append, fieldBits_length] at hread
  simp only [Format.minBits] at hread
  omega

theorem decodeLitLenSymbol_length_le {sym : Nat} {bs rest : Bits} {i : Instr}
    (h : decodeLitLenSymbol sym bs = .ok (i, rest)) : rest.length ≤ bs.length := by
  have hread := minBits_le_read (decodeLitLenSymbol_spells sym bs) (decodeLitLenSymbol_reads sym bs) h
  rw [List.length_append, fieldBits_length] at hread
  exact Nat.le_of_add_le_add_left hread

theorem decodeDistSymbol_length_le {d : Nat} {bs rest : Bits} {i : Instr}
    (h : decodeDistSymbol d bs = .ok (i, rest)) : rest.length ≤ bs.length := by
  have hread := minBits_le_read (decodeDistSymbol_spells d bs) (decodeDistSymbol_reads d bs) h
  rw [List.length_append, fieldBits_length] at hread
  exact Nat.le_of_add_le_add_left hread

theorem decodeLitLen_reads_bit {t : CodeSet} {bs rest : Bits} {i : Instr} (h : decodeLitLen t bs = .ok (i, rest)) :
    rest.length < bs.length := by
  unfold decodeLitLen at h
  split at h
  · cases h
  · next hcode => exact Nat.lt_of_le_of_lt (decodeLitLenSymbol_length_le h) (huffmanDecode_reads_bit hcode)

theorem decodeDist_reads_bit {t : CodeSet} {bs rest : Bits} {i : Instr} (h : decodeDist t bs = .ok (i, rest)) :
    rest.length < bs.length := by
  unfold decodeDist at h
  split at h
  · cases h
  · next hcode => exact Nat.lt_of_le_of_lt (decodeDistSymbol_length_le h) (huffmanDecode_reads_bit hcode)

theorem decode_reads_bit {f : Format} {bs rest : Bits} {i : Instr} (hf : 0 < Format.minBits f)
    (h : decode f bs = .ok (i, rest)) : rest.length < bs.length := by
  have hread := minBits_le_read (decode_spells f bs) (decode_reads f bs) h
  omega

/-- The code of a symbol has been read and the symbol comes next (log 11): its element may be empty. -/
def Infl.pending (w : Infl) : Nat :=
  match w.phase with
  | .litLenSymbol | .distSymbol => 1
  | _ => 0

/-- An element is a bit at least, unless its code has been read before, or it is a code-length code of no lengths. -/
theorem Infl.decodeNext_reads_bit {w : Infl} {bs rest : Bits} {i : Instr} (h : w.decodeNext bs = .ok (i, rest)) :
    rest.length < bs.length ∨ (i.format = .litLenSymbol ∨ i.format = .distSymbol) ∧ w.pending = 1 ∨ i = .dynClLens [] := by
  have hformat := w.decodeNext_reads bs i rest h
  have hdrop {n : Nat} (hlt : rest.length < (bs.drop n).length) : rest.length < bs.length :=
    by rw [List.length_drop] at hlt; omega
  unfold Infl.nextFormat at hformat
  unfold Infl.decodeNext at h
  unfold Infl.pending
  cases hphase : w.phase <;> simp only [hphase] at h hformat
  case header | block | dynCounts => exact .inl (decode_reads_bit (by decide) h)
  case storedBody | trailer => exact .inl (hdrop (decode_reads_bit (by decide) h))
  case dynClLens =>
    cases hncl : w.ncl with
    | zero =>
      cases i with
      | dynClLens lens =>
        simp only [Instr.format, hncl, Format.dynClLens.injEq] at hformat
        exact .inr (.inr (by rw [List.length_eq_zero_iff.1 hformat]))
      | _ => cases hformat
    | succ n =>
      rw [hncl] at h
      exact .inl (decode_reads_bit (f := .dynClLens (n + 1)) (Nat.succ_pos n) h)
  case codeLengths => exact .inl (decodeCodeLength_reads_bit h)
  case litLenCode =>
    split at h
    · exact .inl (decode_reads_bit (by decide) h)
    · exact .inl (decodeLitLen_reads_bit h)
  case distCode =>
    split at h
    · exact .inl (decode_reads_bit (by decide) h)
    · exact .inl (decodeDist_reads_bit h)
  case litLenSymbol => exact .inr (.inl ⟨.inl hformat, rfl⟩)
  case distSymbol => exact .inr (.inl ⟨.inr hformat, rfl⟩)

/-! ## What an element leaves -/

/-- An element after which the INFLATE goes on has an operation that succeeds, and leaves its answer. -/
theorem inflating_leaves {s t : State} {w : Infl} {k : Infl → Except Err Infl} (he : s.engine = .infl w)
    (h : inflating s k = .next t) (ht : t.status.busy = true) : ∃ w', k w = .ok w' ∧ t = s.withInfl w' := by
  obtain ⟨v, hv, -, rfl⟩ := inflating_next s t k h
  obtain rfl : w = v := Engine.infl.inj (he.symm.trans hv)
  cases hk : k w with
  | ok w' => exact ⟨w', rfl, rfl⟩
  | error e =>
    rw [hk] at ht
    cases ht

/-- The trailer completes the command (R205). -/
theorem execZlibTrailer_completes {s t : State} {a : Word} (h : execZlibTrailer a s = .next t) : t.status.busy = false := by
  unfold execZlibTrailer at h
  repeat' split at h
  all_goals cases h
  all_goals rfl

/-- An element after which the INFLATE goes on changes the working state only, and moves no cursor back. -/
theorem exec_element_leaves {i : Instr} {s t : State} {w : Infl} (hcmd : i.format ≠ .cmdWord)
    (hfilter : i.format ≠ .filterByte) (he : s.engine = .infl w) (h : exec i s = .next t) (ht : t.status.busy = true) :
    ∃ w', t = s.withInfl w' ∧ w.Advances s w' := by
  by_cases htrailer : i.format = .zlibTrailer
  · cases i with
    | zlibTrailer a => cases (execZlibTrailer_completes h).symm.trans ht
    | _ => cases htrailer
  · obtain ⟨k, hk, -, hadvances⟩ := operates_of_element hcmd hfilter htrailer
    obtain ⟨w', hw', rfl⟩ := inflating_leaves he (hk s ▸ h) ht
    exact ⟨w', rfl, hadvances s w w' hw'⟩

/-- No symbol is pending after an operation, if it succeeds (R190). -/
theorem inflating_pending {s t : State} {w' : Infl} {k : Infl → Except Err Infl} (h : inflating s k = .next t)
    (ht : t.engine = .infl w') (hk : ∀ w w', k w = .ok w' → w'.pending = 0) : w'.pending = 0 := by
  obtain ⟨w, -, -, rfl⟩ := inflating_next s t k h
  cases hw : k w with
  | ok v =>
    rw [hw] at ht
    cases ht
    exact hk w _ hw
  | error e =>
    rw [hw] at ht
    cases ht

theorem distanceSymbol_pending {n : Nat} {s t : State} {w' : Infl} (h : distanceSymbol n s = .next t)
    (ht : t.engine = .infl w') : w'.pending = 0 :=
  inflating_pending h ht fun _ _ hw => by
    repeat' split at hw
    all_goals cases hw
    rfl

theorem lengthSymbol_pending {n : Nat} {s t : State} {w' : Infl} (h : lengthSymbol n s = .next t)
    (ht : t.engine = .infl w') : w'.pending = 0 :=
  inflating_pending h ht fun _ _ hw => by cases hw; rfl

theorem Infl.endBlock_pending (w : Infl) : w.endBlock.pending = 0 := by
  unfold Infl.endBlock Infl.pending
  cases w.final <;> rfl

/-- After a symbol no symbol is pending: a code comes next, or a block header or the trailer (R190). -/
theorem exec_symbol_pending {i : Instr} {s t : State} {w' : Infl} (hi : i.format = .litLenSymbol ∨ i.format = .distSymbol)
    (h : exec i s = .next t) (ht : t.engine = .infl w') : w'.pending = 0 := by
  cases i with
  | literal b =>
    refine inflating_pending h ht fun _ _ hw => ?_
    split at hw <;> cases hw
    rfl
  | endOfBlock => exact inflating_pending h ht fun w _ hw => by cases hw; exact w.endBlock_pending
  | ll286To287 _ | dist30To31 _ => exact inflating_pending h ht fun _ _ hw => by cases hw
  | len257 | len258 | len259 | len260 | len261 | len262 | len263 | len264 | len265 _ | len266 _ | len267 _ | len268 _ | len269 _
  | len270 _ | len271 _ | len272 _ | len273 _ | len274 _ | len275 _ | len276 _ | len277 _ | len278 _ | len279 _ | len280 _
  | len281 _ | len282 _ | len283 _ | len284 _ | len285 => exact lengthSymbol_pending h ht
  | dist0 | dist1 | dist2 | dist3 | dist4 _ | dist5 _ | dist6 _ | dist7 _ | dist8 _ | dist9 _ | dist10 _ | dist11 _ | dist12 _
  | dist13 _ | dist14 _ | dist15 _ | dist16 _ | dist17 _ | dist18 _ | dist19 _ | dist20 _ | dist21 _ | dist22 _ | dist23 _
  | dist24 _ | dist25 _ | dist26 _ | dist27 _ | dist28 _ | dist29 _ => exact distanceSymbol_pending h ht
  | _ => simp [Instr.format] at hi

/-- A code-length code of no lengths is not complete (R183). -/
theorem exec_dynClLens_nil {s t : State} (h : exec (.dynClLens []) s = .next t) : t.status.busy = false := by
  obtain ⟨w, -, -, rfl⟩ := inflating_next s t _ h
  rw [if_pos (by decide)]
  rfl

/-- A row after which a DEFILTER goes on is added to its rows (R158). -/
theorem rebuildRow_leaves {k : FilterKind} {s t : State} {f : Filt} (he : s.engine = .filt f) (h : rebuildRow k s = .next t)
    (ht : t.status.busy = true) : ∃ row, t.engine = .filt (f.addRow row) := by
  obtain ⟨g, hg, -, -, -, h⟩ := defiltering_next _ _ _ h
  obtain rfl : f = g := Engine.filt.inj (he.symm.trans hg)
  cases h
  unfold State.afterRow at ht ⊢
  split at ht
  · next hnext => exact ⟨_, by rw [if_pos hnext]⟩
  · cases ht

theorem exec_filterByte_leaves {i : Instr} {s t : State} {f : Filt} (hi : i.format = .filterByte) (he : s.engine = .filt f)
    (h : exec i s = .next t) (ht : t.status.busy = true) : ∃ row, t.engine = .filt (f.addRow row) := by
  cases i with
  | filterNone | filterSub | filterUp | filterAverage | filterPaeth => exact rebuildRow_leaves he h ht
  | filterIllegal b =>
    obtain ⟨_, -, -, -, -, h⟩ := defiltering_next _ _ _ h
    cases h
    cases ht
  | _ => cases hi

/-! ## The internal steps to come -/

/-- A bound on the internal steps a command in flight takes, the one that completes it apart. -/
def State.stepsLeft (s : State) : Nat :=
  match s.engine with
  | .idle => 16 * s.slen.toNat + s.imgH.toNat + 2
  | .infl w => 2 * (8 * s.slen.toNat - w.ipos) + w.pending
  | .filt f => f.height - f.row

theorem Infl.pending_le (w : Infl) : w.pending ≤ 1 := by
  unfold Infl.pending
  split <;> decide

theorem State.stepsLeft_idle {s : State} (he : s.engine = .idle) : s.stepsLeft = 16 * s.slen.toNat + s.imgH.toNat + 2 := by
  simp only [State.stepsLeft, he]

theorem State.stepsLeft_infl {s : State} {w : Infl} (he : s.engine = .infl w) :
    s.stepsLeft = 2 * (8 * s.slen.toNat - w.ipos) + w.pending := by
  simp only [State.stepsLeft, he]

theorem State.stepsLeft_filt {s : State} {f : Filt} (he : s.engine = .filt f) : s.stepsLeft = f.height - f.row := by
  simp only [State.stepsLeft, he]

theorem State.stepsLeft_lt_internalBound {s : State} (hs : s.Coherent) : s.stepsLeft < s.internalBound := by
  unfold State.internalBound
  cases he : s.engine with
  | idle =>
    rw [State.stepsLeft_idle he]
    omega
  | infl w =>
    have := w.pending_le
    rw [State.stepsLeft_infl he]
    omega
  | filt f =>
    obtain ⟨-, -, -, hheight, -⟩ := hs.engineCoherent.filt he
    rw [State.stepsLeft_filt he]
    omega

/-- A command word that starts a command in flight leaves fewer steps to come. -/
theorem engineStep_idle_stepsLeft {s t : State} (he : s.engine = .idle)
    (h : engineStep s = .next t) (ht : t.status.busy = true) : t.stepsLeft < s.stepsLeft := by
  rw [engineStep_command he] at h
  rw [State.stepsLeft_idle he]
  cases exec_effect _ _ _ h with
  | filtStarted bpp _ _ _ _ =>
    rw [State.stepsLeft_filt rfl]
    show s.imgH.toNat - 0 < _
    omega
  | inflStarted _ _ _ =>
    rw [State.stepsLeft_infl rfl]
    show 2 * (8 * s.slen.toNat - 0) + 0 < _
    omega
  | element _ _ hw => cases he.symm.trans hw
  | rowDone _ _ hf => cases he.symm.trans hf
  | _ => cases ht

/-- An element after which an INFLATE goes on leaves fewer steps to come. -/
theorem engineStep_infl_stepsLeft {s t : State} {w : Infl} (hs : s.Coherent) (he : s.engine = .infl w)
    (h : engineStep s = .next t) (ht : t.status.busy = true) : t.stepsLeft < s.stepsLeft := by
  obtain ⟨-, hsrc, hdst, -, hpos, -⟩ := hs.engineCoherent.infl he
  have hv := s.inflRegionsValid_iff.2 ⟨hsrc, hdst⟩
  cases hdec : w.decodeNext (s.window w.ipos) with
  | error r =>
    rw [engineStep_rejects he hv hdec] at h
    cases h
    cases ht
  | ok r =>
    obtain ⟨i, rest⟩ := r
    rw [engineStep_reads he hv hdec] at h
    have hformat := w.decodeNext_reads _ i rest hdec
    obtain ⟨w', rfl, hadvances⟩ := exec_element_leaves (hformat ▸ w.nextFormat_ne_cmdWord)
      (hformat ▸ w.nextFormat_ne_filterByte) rfl h ht
    have hforward : w.ipos + ((s.window w.ipos).length - rest.length) ≤ w'.ipos := hadvances.forward
    have hwindow := s.window_length_le w.ipos
    have hpending := w'.pending_le
    rw [State.stepsLeft_infl he, State.stepsLeft_infl rfl]
    show 2 * (8 * s.slen.toNat - w'.ipos) + w'.pending < _
    rcases Infl.decodeNext_reads_bit hdec with hread | ⟨hsymbol, hw⟩ | rfl
    · omega
    · have := exec_symbol_pending hsymbol h rfl
      omega
    · cases (exec_dynClLens_nil h).symm.trans ht

/-- A row after which a DEFILTER goes on leaves fewer steps to come. -/
theorem engineStep_filt_stepsLeft {s t : State} {f : Filt} (hs : s.Coherent) (hbusy : s.status.busy = true)
    (he : s.engine = .filt f) (h : engineStep s = .next t) (ht : t.status.busy = true) : t.stepsLeft < s.stepsLeft := by
  obtain ⟨-, hrow, hsrc, -⟩ := hs.defiltering hbusy he
  rw [engineStep_row he hrow hsrc] at h
  obtain ⟨row, hnext⟩ := exec_filterByte_leaves (decodeFilterByte_format _) he h ht
  rw [State.stepsLeft_filt he, State.stepsLeft_filt hnext]
  show f.height - (f.row + 1) < _
  omega

/-- An internal step that does not complete the command leaves fewer steps to come (R132). -/
theorem engineStep_stepsLeft {s t : State} (hs : s.Coherent) (hbusy : s.status.busy = true) (h : engineStep s = .next t)
    (ht : t.status.busy = true) : t.stepsLeft < s.stepsLeft := by
  cases he : s.engine with
  | idle => exact engineStep_idle_stepsLeft he h ht
  | infl w => exact engineStep_infl_stepsLeft hs he h ht
  | filt f => exact engineStep_filt_stepsLeft hs hbusy he h ht

/-! ## Completion -/

/-- The internal steps complete the command within the bound of the engine's move (R132). -/
theorem runCommand_completes_of_le {n : Nat} {s : State} (hs : s.Coherent) (hn : s.internalBound ≤ n) :
    ∃ t, runCommand n s = .next t ∧ t.Coherent ∧ t.status.busy = false := by
  refine runCommand_completes State.Coherent State.stepsLeft (fun s hs hbusy => ?_) n s hs
    (Nat.lt_of_lt_of_le (State.stepsLeft_lt_internalBound hs) hn)
  obtain ⟨t, ht⟩ := engineStep_answers hs hbusy
  exact ⟨t, ht, engineStep_coherent hs hbusy ht, engineStep_stepsLeft hs hbusy ht⟩

/-- With no turn to come the model shows the internal steps one by one, and then stays (log 6). -/
theorem runEngine_eq_runCommand (n : Nat) : ∀ {s : State}, s.turns = [] → runEngine n s = runCommand n s := by
  induction n with
  | zero => intro s _; rfl
  | succ n ih =>
    intro s hturns
    cases hbusy : s.status.busy with
    | false =>
      rw [runEngine_succ n (step_alone_idle hbusy hturns), ih hturns, runCommand_done _ _ hbusy, runCommand_done _ _ hbusy]
    | true =>
      have hstep := step_alone hbusy hturns
      cases h : engineStep s with
      | next t =>
        rw [runEngine_succ n (hstep.trans h), runCommand_succ n s t hbusy h, ih ((engineStep_turns h).trans hturns)]
      | fault r => simp [runEngine, Host.Core.run, core, hstep, runCommand, hbusy, h]
      | refused r => simp [runEngine, Host.Core.run, core, hstep, runCommand, hbusy, h]

/-- Once the command has completed more steps change nothing. -/
theorem runCommand_mono {k : Nat} : ∀ {n : Nat} {s t : State}, k ≤ n → runCommand k s = .next t → t.status.busy = false →
    runCommand n s = .next t := by
  induction k with
  | zero =>
    intro n s t _ h ht
    cases h
    exact runCommand_done n s ht
  | succ k ih =>
    intro n s t hn h ht
    obtain ⟨n, rfl⟩ : ∃ m, n = m + 1 := ⟨n - 1, by omega⟩
    cases hbusy : s.status.busy with
    | false => rwa [runCommand_done _ _ hbusy] at h ⊢
    | true =>
      rw [runCommand, if_pos hbusy] at h ⊢
      cases hstep : engineStep s with
      | next u =>
        rw [hstep] at h
        exact ih (Nat.le_of_succ_le_succ hn) h ht
      | fault | refused =>
        rw [hstep] at h
        cases h

/-- An internal step ends the command with `DONE = 1` (R127, R128). -/
theorem engineStep_status_done {s t : State} (hs : s.Coherent) (hbusy : s.status.busy = true) (h : engineStep s = .next t)
    (ht : t.status.busy = false) : t.status.done = true := by
  cases engineStep_commandEffect hs hbusy h with
  | working => exact absurd (hbusy.symm.trans ht) (by decide)
  | _ => rfl

theorem runCommand_status_done {n : Nat} {s t : State} (hs : s.Coherent) (hbusy : s.status.busy = true)
    (h : runCommand n s = .next t) (ht : t.status.busy = false) : t.status.done = true := by
  have hkeeps := runCommand_keeps (fun u => u.Coherent ∧ (u.status.busy = false → u.status.done = true))
    (fun u v ⟨hu, _⟩ hub hstep => ⟨engineStep_coherent hu hub hstep, engineStep_status_done hu hub hstep⟩)
  obtain ⟨-, hdone⟩ := hkeeps n s t ⟨hs, fun hidle => absurd (hbusy.symm.trans hidle) (by decide)⟩ h
  exact hdone ht

/-- Settles O58: the internal steps are a `runCommand`, which `stepsLeft` bounds. -/
theorem everyCommandCompletes : Obligations.EveryCommandCompletes := by
  refine ⟨fun s hs hturns => ?_, fun s ts hs hbusy hturns => ?_⟩
  · obtain ⟨t, hrun, ht, hdone⟩ := runCommand_completes_of_le hs le_rfl
    exact ⟨s.internalBound, t, (runEngine_eq_runCommand _ hturns).trans hrun, hdone, ht⟩
  · obtain ⟨t, hrun, ht, hdone⟩ := runCommand_completes_of_le (s := { s with turns := [] }) hs le_rfl
    obtain ⟨-, -, -, -, hidle, -⟩ := id ht
    refine ⟨_, t, ?_, (runEngine_eq_runCommand _ rfl).trans hrun, hdone, ?_, hidle hdone, ht⟩
    · rw [step_engine hbusy hturns]
      exact engineMove_of_runCommand (s := { s with turns := ts }) hrun
    · exact runCommand_status_done (s := { s with turns := [] }) hs hbusy hrun hdone

/-- Settles O2: without a command in flight nothing happens; with one the engine's move is a `runCommand`, and more steps than
the command takes change nothing. -/
theorem engineMovesExactlyWhileBusy : Obligations.EngineMovesExactlyWhileBusy := by
  refine fun s ts => ⟨fun hbusy => ⟨step_alone_idle hbusy, step_engine_idle hbusy⟩,
    fun hbusy => ⟨step_alone hbusy, fun k t hk hrun ht => ?_⟩⟩
  have hrun' : runCommand s.internalBound { s with turns := [] } = .next t :=
    runCommand_mono hk ((runEngine_eq_runCommand k rfl).symm.trans hrun) ht
  refine ⟨fun hturns => ?_, fun hturns => ?_⟩
  · rw [step_engine hbusy hturns]
    exact engineMove_of_runCommand (s := { s with turns := ts }) hrun'
  · rw [step_wait hbusy hturns, engineMove_of_runCommand hrun', hturns]

end Sys2Proof.Machine
end

section
/-! PROOF. INFLATE depends on its source bytes alone (43_inflate.md R210, 40_command_protocol.md R135): two INFLATEs over equal
source bytes run in lockstep. Both fetch the same element, whose operation answers the same, so both go on with equal working
states or complete with equal results. -/

namespace Sys2Proof.Machine

/-! ## Equal sources -/

/-- What is read depends on the bytes of `BUF` alone. -/
theorem State.memRead_congr {s t : State} (h : s.SameBuf t) (a n : Nat) : t.memRead a n = s.memRead a n := by
  induction n generalizing a with
  | zero => rfl
  | succ n ih => rw [State.memRead, State.memRead, h, ih]

theorem State.memRead_withTurns (s : State) (ts : List Turn) (a n : Nat) :
    State.memRead { s with turns := ts } a n = s.memRead a n :=
  State.memRead_congr (s := s) (t := { s with turns := ts }) (fun _ => rfl) a n

theorem State.SameSource.withInfl {s s' : State} (h : s.SameSource s') (w : Infl) :
    (s.withInfl w).SameSource (s'.withInfl w) where
  slen := h.slen
  dcap := h.dcap
  bytes := by
    rw [State.memRead_withInfl, State.memRead_withInfl]
    exact h.bytes

theorem State.SameSource.withTurns {s s' : State} (h : s.SameSource s') (ts ts' : List Turn) :
    State.SameSource { s with turns := ts } { s' with turns := ts' } where
  slen := h.slen
  dcap := h.dcap
  bytes := by
    rw [State.memRead_withTurns s ts, State.memRead_withTurns s' ts']
    exact h.bytes

/-- The decoder sees the same bits in both (R171). -/
theorem State.SameSource.window_eq {s s' : State} (h : s.SameSource s') (ipos : Nat) : s.window ipos = s'.window ipos := by
  rw [State.window_eq, State.window_eq, h.bytes]

/-! ## Equal results -/

/-- What the statement compares of the states after two INFLATEs or parts of them (R210). -/
structure State.SameResult (t t' : State) : Prop where
  status : t.status = t'.status
  engine : t.engine = t'.engine
  dlen : t.status.busy = false → t.dlen = t'.dlen
  success : t.status.busy = false → t.status.err = false → t.icons = t'.icons ∧ t.adler = t'.adler
    ∧ t.memRead t.dst.toNat t.dlen.toNat = t'.memRead t'.dst.toNat t'.dlen.toNat

theorem State.SameResult.withTurns {t t' : State} (h : t.SameResult t') (ts ts' : List Turn) :
    State.SameResult { t with turns := ts } { t' with turns := ts' } where
  status := h.status
  engine := h.engine
  dlen := h.dlen
  success hbusy herr := by
    rw [State.memRead_withTurns t ts, State.memRead_withTurns t' ts']
    exact h.success hbusy herr

/-- Two INFLATEs that are in flight with the same working state. -/
theorem State.Inflating.sameResult {s s' : State} {w : Infl} (h : s.Inflating w) (h' : s'.Inflating w) : s.SameResult s' := by
  obtain ⟨he, -, -, hstatus⟩ := h
  obtain ⟨he', -, -, hstatus'⟩ := h'
  have hbusy : s.status.busy ≠ false := by simp [hstatus]
  exact ⟨hstatus.trans hstatus'.symm, he.trans he'.symm, fun hidle => absurd hidle hbusy, fun hidle => absurd hidle hbusy⟩

/-- Two INFLATEs that end with the same error. -/
theorem State.sameResult_raiseData {s s' : State} (h : s.status = s'.status) (r r' : Region) (e : Err) :
    (s.raiseData r e).SameResult (s'.raiseData r' e) where
  status := by rw [State.raiseData_status, State.raiseData_status, h]
  engine := rfl
  dlen _ := rfl
  success _ herr := by cases herr

/-- What a command has written is read back at `DST`. -/
theorem State.SucceedsWriting.memRead_eq {s t : State} {out : List Byte} (h : s.SucceedsWriting t out) :
    t.memRead t.dst.toNat t.dlen.toNat = out := by
  obtain ⟨⟨-, -, -, -, hdst, -⟩, -, -, hdlen, -, -, -, hbytes⟩ := h
  refine List.ext_getElem (by rw [State.memRead_length, hdlen]) fun i _ hi => ?_
  rw [State.memRead_getElem, hdst, hbytes i hi]

/-- Two INFLATEs that succeed with the same working state (R208). -/
theorem State.sameResult_inflateDone {s s' : State} {w : Infl} (hstatus : s.status = Status.running)
    (hstatus' : s'.status = Status.running) (hw : w.Counted) (hcap : w.count ≤ s.dcap.toNat) (hdcap : s.dcap = s'.dcap) :
    (s.inflateDone w).SameResult (s'.inflateDone w) where
  status := by rw [State.inflateDone_status, State.inflateDone_status, hstatus, hstatus']
  engine := rfl
  dlen _ := rfl
  success _ _ := by
    refine ⟨rfl, rfl, ?_⟩
    rw [(State.inflateDone_succeedsWriting hstatus hw hcap).memRead_eq,
      (State.inflateDone_succeedsWriting hstatus' hw (hdcap ▸ hcap)).memRead_eq]

/-! ## One internal step -/

/-- Two coherent states with an INFLATE in flight over equal source bytes, in the same working state. -/
structure State.SameInflate (s s' : State) (w : Infl) : Prop where
  coherent : s.Coherent
  coherent' : s'.Coherent
  inflating : s.Inflating w
  inflating' : s'.Inflating w
  source : s.SameSource s'

theorem State.Inflating.busy {s : State} {w : Infl} (h : s.Inflating w) : s.status.busy = true := by
  obtain ⟨-, -, -, hstatus⟩ := h
  rw [hstatus]
  rfl

/-- The element at the cursor means the same in both: they go on with the same working state or complete with the same result. -/
theorem exec_element_agree {s s' t t' : State} {w : Infl} {i : Instr} (h : s.Inflating w) (h' : s'.Inflating w)
    (hsource : s.SameSource s') (hw : w.Counted) (hcap : w.count ≤ s.dcap.toNat) (hcmd : i.format ≠ .cmdWord)
    (hfilter : i.format ≠ .filterByte) (ht : exec i s = .next t) (ht' : exec i s' = .next t') :
    (∃ w', t = s.withInfl w' ∧ t' = s'.withInfl w') ∨ t.SameResult t' ∧ t.status.busy = false := by
  obtain ⟨-, -, -, hstatus⟩ := id h
  obtain ⟨-, -, -, hstatus'⟩ := id h'
  have hsame := hstatus.trans hstatus'.symm
  by_cases htrailer : i.format = .zlibTrailer
  · cases i with
    | zlibTrailer a =>
      rw [execZlibTrailer_eq h] at ht
      rw [execZlibTrailer_eq h'] at ht'
      cases ht
      cases ht'
      split
      · exact .inr ⟨State.sameResult_inflateDone hstatus hstatus' hw hcap hsource.dcap, rfl⟩
      · exact .inr ⟨State.sameResult_raiseData hsame _ _ _, rfl⟩
    | _ => cases htrailer
  · obtain ⟨k, hk, hk', -⟩ := operates_of_element hcmd hfilter htrailer
    rw [hk, inflating_eq s w _ h] at ht
    rw [hk, inflating_eq s' w _ h', ← hk' s s' w hsource] at ht'
    cases ht
    cases ht'
    cases k s w with
    | ok w' => exact .inl ⟨w', rfl, rfl⟩
    | error e => exact .inr ⟨State.sameResult_raiseData hsame _ _ e, rfl⟩

/-- One internal step keeps two such INFLATEs in lockstep, or completes both with the same result (log 6). -/
theorem State.SameInflate.engineStep_agree {s s' t t' : State} {w : Infl} (h : s.SameInflate s' w)
    (ht : engineStep s = .next t) (ht' : engineStep s' = .next t') :
    (∃ w', t.SameInflate t' w') ∨ t.SameResult t' ∧ t.status.busy = false := by
  obtain ⟨hs, hs', hinfl, hinfl', hsource⟩ := h
  obtain ⟨he, hsrc, hdst, hstatus⟩ := id hinfl
  obtain ⟨he', hsrc', hdst', hstatus'⟩ := id hinfl'
  have hv := s.inflRegionsValid_iff.2 ⟨hsrc, hdst⟩
  have hv' := s'.inflRegionsValid_iff.2 ⟨hsrc', hdst'⟩
  have hwindow := hsource.window_eq w.ipos
  cases hdec : w.decodeNext (s.window w.ipos) with
  | error e =>
    have hreject := ht.symm.trans (engineStep_rejects he hv hdec)
    have hreject' := ht'.symm.trans (engineStep_rejects he' hv' (hwindow ▸ hdec))
    cases hreject
    cases hreject'
    exact .inr ⟨State.sameResult_raiseData (hstatus.trans hstatus'.symm) _ _ _, rfl⟩
  | ok r =>
    obtain ⟨i, rest⟩ := r
    have hpast : s'.pastElement w rest = s.pastElement w rest := by rw [State.pastElement, State.pastElement, hwindow]
    have hread := (engineStep_reads he hv hdec).symm.trans ht
    have hread' := (engineStep_reads he' hv' (hwindow ▸ hdec)).symm.trans ht'
    rw [hpast] at hread'
    have hformat := w.decodeNext_reads _ i rest hdec
    obtain ⟨-, -, -, -, -, hcounted, hcap⟩ := hs.engineCoherent.infl he
    have hagree := exec_element_agree (s := s.withInfl (s.pastElement w rest)) (s' := s'.withInfl (s.pastElement w rest))
      ⟨rfl, hsrc, hdst, hstatus⟩ ⟨rfl, hsrc', hdst', hstatus'⟩ (hsource.withInfl _) hcounted hcap
      (hformat ▸ w.nextFormat_ne_cmdWord) (hformat ▸ w.nextFormat_ne_filterByte) hread hread'
    refine hagree.imp_left ?_
    rintro ⟨w', rfl, rfl⟩
    exact ⟨w', engineStep_coherent hs hinfl.busy ht, engineStep_coherent hs' hinfl'.busy ht', ⟨rfl, hsrc, hdst, hstatus⟩,
      ⟨rfl, hsrc', hdst', hstatus'⟩, hsource.withInfl w'⟩

theorem State.SameInflate.sameResult {s s' : State} {w : Infl} (h : s.SameInflate s' w) : s.SameResult s' :=
  h.inflating.sameResult h.inflating'

/-! ## The engine's move -/

/-- The same number of internal steps leads both to the same result. -/
theorem State.SameInflate.runCommand_agree (n : Nat) : ∀ {s s' t t' : State} {w : Infl}, s.SameInflate s' w →
    runCommand n s = .next t → runCommand n s' = .next t' → t.SameResult t' := by
  induction n with
  | zero =>
    intro s s' t t' w h ht ht'
    cases ht
    cases ht'
    exact h.sameResult
  | succ n ih =>
    intro s s' t t' w h ht ht'
    obtain ⟨u, hu⟩ := engineStep_answers h.coherent h.inflating.busy
    obtain ⟨u', hu'⟩ := engineStep_answers h.coherent' h.inflating'.busy
    rw [runCommand_succ n s u h.inflating.busy hu] at ht
    rw [runCommand_succ n s' u' h.inflating'.busy hu'] at ht'
    rcases h.engineStep_agree hu hu' with ⟨w', hnext⟩ | ⟨hresult, hdone⟩
    · exact ih hnext ht ht'
    · rw [runCommand_done n u hdone] at ht
      rw [runCommand_done n u' (hresult.status ▸ hdone)] at ht'
      cases ht
      cases ht'
      exact hresult

/-- The engine's move completes the command, so any greater number of internal steps leads to the same state (R126, R132). -/
theorem engineMove_runCommand {s t : State} {n : Nat} (hs : s.Coherent) (h : engineMove s = .next t)
    (hn : s.internalBound ≤ n) : ∃ u, runCommand n { s with turns := [] } = .next u ∧ t = { u with turns := s.turns } := by
  obtain ⟨u, hrun, rfl⟩ := engineMove_next h
  obtain ⟨v, hrun', -, hdone⟩ := runCommand_completes_of_le (s := { s with turns := [] }) hs le_rfl
  cases hrun.symm.trans hrun'
  exact ⟨u, runCommand_mono hn hrun hdone, rfl⟩

theorem State.SameInflate.withTurns {s s' : State} {w : Infl} (h : s.SameInflate s' w) (ts ts' : List Turn) :
    State.SameInflate { s with turns := ts } { s' with turns := ts' } w :=
  ⟨h.coherent, h.coherent', h.inflating, h.inflating', h.source.withTurns ts ts'⟩

/-- The engine's moves of both lead to the same result, although the bounds on their internal steps may differ. -/
theorem State.SameInflate.engineMove_agree {s s' t t' : State} {w : Infl} (h : s.SameInflate s' w)
    (ht : engineMove s = .next t) (ht' : engineMove s' = .next t') : t.SameResult t' := by
  obtain ⟨u, hu, rfl⟩ := engineMove_runCommand h.coherent ht (le_max_left s.internalBound s'.internalBound)
  obtain ⟨u', hu', rfl⟩ := engineMove_runCommand h.coherent' ht' (le_max_right s.internalBound s'.internalBound)
  exact (State.SameInflate.runCommand_agree _ (h.withTurns [] []) hu hu').withTurns _ _

/-- Settles O47: an internal step by `engineStep_agree`, the engine's move by `engineMove_agree`. -/
theorem inflateDependsOnItsSourceBytesAlone : Obligations.InflateDependsOnItsSourceBytesAlone := by
  intro s s' t t' w hs hs' he he' hbusy hbusy' hturns hslen hdcap hbytes ht ht'
  have h : s.SameInflate s' w := ⟨hs, hs', hs.inflating hbusy he, hs'.inflating hbusy' he', hslen, hdcap, hbytes⟩
  have hresult : t.SameResult t' := by
    rcases hturns with ⟨hnil, hnil'⟩ | ⟨ts, ts', hengine, hengine'⟩
    · rw [step_alone hbusy hnil] at ht
      rw [step_alone hbusy' hnil'] at ht'
      rcases h.engineStep_agree ht ht' with ⟨w', hnext⟩ | ⟨hresult, -⟩
      · exact hnext.sameResult
      · exact hresult
    · rw [step_engine hbusy hengine] at ht
      rw [step_engine hbusy' hengine'] at ht'
      exact (h.withTurns ts ts').engineMove_agree ht ht'
  exact ⟨hresult.status, hresult.engine, hresult.dlen, hresult.success⟩

end Sys2Proof.Machine
end

section
/-! PROOF. The CRC commands (41_crc32.md R141 to R144). CRC32 and CRC32.CONT differ only in the value they continue from, so what
each does is a case of `crcFrom`; the law of R142 holds because the final complement of one piece and the initial one of the
next cancel, and a CRC command changes no byte of `BUF`, so it carries over from sequences to commands. -/

namespace Sys2Proof.Machine

/-! ## The function -/

/-- The CRC of nothing is the value continued from (R140). -/
@[simp] theorem crcUpdate_nil (c : Word) : crcUpdate c [] = c := by
  simp [crcUpdate]

/-- The law of R142. -/
theorem crcUpdate_append (c : Word) (s t : List Byte) : crcUpdate c (s ++ t) = crcUpdate (crcUpdate c s) t := by
  simp [crcUpdate]

/-! ## The commands -/

section
variable {s : State} (hs : s.status = Status.running)
include hs

/-- The check of R66 that begins every CRC command: a region outside `BUF` completes it with `E_ADDR`. -/
theorem raises_outside (r : Region) (inside : Result) (h : s.params.bufSize < r.addr + r.len) :
    ∃ t, (if s.holds r then inside else .next (s.raise .addr)) = .next t ∧ s.FailsUnchanged t .addr :=
  ⟨s.raise .addr, if_neg (Bool.eq_false_iff.1 ((s.not_holds_iff r).2 h)), s.raise_spec .addr hs⟩

theorem crcFrom_inside (c : Word) (h : s.src.toNat + s.slen.toNat ≤ s.params.bufSize) :
    crcFrom c s = .next { s with
      crcVal := crcUpdate c (s.memRead s.src.toNat s.slen.toNat)
      dlen := 0#32, status := Status.success false, engine := .idle } := by
  rw [crcFrom, if_pos ((s.holds_iff s.srcRegion).2 h)]
  simp [State.succeed, State.readRegion, State.srcRegion, hs]

/-- What the command leaves for the next one: the same `BUF`, and a `CRC_VAL` to continue from. -/
theorem crcFrom_next {t : State} {c : Word} (h : s.src.toNat + s.slen.toNat ≤ s.params.bufSize) (ht : crcFrom c s = .next t) :
    t.params = s.params ∧ s.SameBuf t ∧ t.crcVal = crcUpdate c (s.memRead s.src.toNat s.slen.toNat) := by
  rw [crcFrom_inside hs c h] at ht
  cases ht
  exact ⟨rfl, fun _ => rfl, rfl⟩

theorem crcFrom_outside (c : Word) (h : s.params.bufSize < s.src.toNat + s.slen.toNat) :
    ∃ t, crcFrom c s = .next t ∧ s.FailsUnchanged t .addr :=
  raises_outside hs s.srcRegion _ h

theorem execCrcCheck_inside (h : s.src.toNat + s.slen.toNat + 4 ≤ s.params.bufSize) :
    execCrcCheck s = .next { s with
      crcVal := crcUpdate 0#32 (s.memRead s.src.toNat s.slen.toNat)
      dlen := 0#32
      status := Status.success ((crcUpdate 0#32 (s.memRead s.src.toNat s.slen.toNat)).toNat == s.storedCrc)
      engine := .idle } := by
  rw [execCrcCheck, if_pos ((s.holds_iff s.crcRegion).2 h)]
  simp [State.succeed, State.readRegion, State.srcRegion, hs]

theorem execCrcCheck_outside (h : s.params.bufSize < s.src.toNat + s.slen.toNat + 4) :
    ∃ t, execCrcCheck s = .next t ∧ s.FailsUnchanged t .addr :=
  raises_outside hs s.crcRegion _ h

end

/-- The stored CRC is a word exactly when its four bytes are the word's, big-endian (R144, R8). -/
theorem State.storedCrc_eq_iff (s : State) (c : Word) :
    s.storedCrc = c.toNat ↔ s.memRead (s.src.toNat + s.slen.toNat) 4 = serBe 4 c.toNat := by
  have honly := serBeIsTheOnlySequenceOfItsValue 4 c.toNat (s.memRead (s.src.toNat + s.slen.toNat) 4) c.isLt
  rw [← honly]
  simp [State.storedCrc, State.memRead_length]

/-- Settles O15: both clauses are cases of `crcFrom`. -/
theorem crc32LeavesTheCrcOfItsRegion : Obligations.Crc32LeavesTheCrcOfItsRegion :=
  fun _ hs => ⟨crcFrom_inside hs _, crcFrom_outside hs _⟩

/-- Settles O16: the command by the cases of `crcFrom`, the law by `crcUpdate_append`. -/
theorem crc32ContContinuesFromCrcVal : Obligations.Crc32ContContinuesFromCrcVal :=
  ⟨fun _ hs => ⟨crcFrom_inside hs _, crcFrom_outside hs _⟩, fun c s t => (crcUpdate_append c s t).symm⟩

/-- Settles O17: the two forms of the comparison agree by `storedCrc_eq_iff`. -/
theorem crcCheckReportsTheComparison : Obligations.CrcCheckReportsTheComparison := by
  intro s hs c
  refine ⟨fun h => ⟨c.toNat == s.storedCrc, execCrcCheck_inside hs h, ?_⟩, execCrcCheck_outside hs⟩
  have hmatch : (c.toNat == s.storedCrc) = true ↔ s.storedCrc = c.toNat := by rw [beq_iff_eq, eq_comm]
  exact ⟨hmatch, hmatch.trans (s.storedCrc_eq_iff c)⟩

/-- Settles O18: CRC32 leaves `BUF` as it was, so CRC32.CONT reads the bytes that stood in its region before either command,
and continues from the CRC of the first region. -/
theorem crcOfTwoPiecesIsTheCrcOfBoth : Obligations.CrcOfTwoPiecesIsTheCrcOfBoth := by
  intro s t src slen hs hfirst hsecond ht
  obtain ⟨hparams, hbuf, hcrc⟩ := crcFrom_next hs hfirst ht
  refine ⟨_, crcFrom_inside rfl t.crcVal (by rwa [hparams]), ?_, rfl⟩
  rw [crcUpdate_append, ← hcrc]
  refine congrArg (crcUpdate t.crcVal) (State.memRead_congr ?_ src.toNat slen.toNat)
  exact hbuf

/-! ## Check values -/

/-- Settles O19: the empty sequences by `crcUpdate_nil` and by definition, the others by evaluation. -/
theorem checksumsHaveTheirCheckValues : Obligations.ChecksumsHaveTheirCheckValues :=
  ⟨crcUpdate_nil _, by decide +kernel, by decide +kernel, rfl, by decide⟩

end Sys2Proof.Machine
end

section
/-! PROOF. The bytes of a row (42_defilter.md R154 to R161). A byte is rebuilt modulo 256 from a predictor below 256, so
rebuilding inverts filtering byte by byte (R162 (a)), and row by row because both directions look at the same neighbours. -/

namespace Sys2Proof.Machine

/-! ## Predictors -/

/-- The Paeth predictor's choice with the distances as absolute values of integers (R155). -/
theorem paethPredictor_eq (a b c : Nat) :
    let p : Int := (a : Int) + b - c
    paethPredictor a b c =
      if |p - a| ≤ |p - b| ∧ |p - a| ≤ |p - c| then a else if |p - b| ≤ |p - c| then b else c := by
  simp only [paethPredictor, absDiff, ← Int.ofNat_le, Int.natCast_natAbs]

/-- The Paeth predictor is one of its three candidates (R155). -/
theorem paethPredictor_mem (a b c : Nat) : paethPredictor a b c ∈ [a, b, c] := by
  rw [paethPredictor_eq]
  split_ifs <;> simp

/-- No predictor leaves the range of a byte (R155, R156). -/
theorem predictor_lt (k : FilterKind) (a b c : Byte) : predictor k a b c < 256 := by
  have ha := a.isLt
  have hb := b.isLt
  have hc := c.isLt
  cases k with
  | none | sub | up | average => simp only [predictor]; omega
  | paeth =>
    have h := paethPredictor_mem a.toNat b.toNat c.toNat
    simp only [List.mem_cons, List.not_mem_nil, or_false] at h
    simp only [predictor]
    omega

/-- Settles O22: the choice is `paethPredictor_eq`, and in each of its three cases the distance chosen is the least. -/
theorem predictorsAreThoseOfTheTable : Obligations.PredictorsAreThoseOfTheTable := by
  intro a b c p pa pb pc r
  have hr : r = if pa ≤ pb ∧ pa ≤ pc then a.toNat else if pb ≤ pc then b.toNat else c.toNat :=
    paethPredictor_eq a.toNat b.toNat c.toNat
  refine ⟨rfl, rfl, rfl, rfl, fun h h' => ?_, fun h h' => ?_, fun h h' => ?_, ?_⟩
  · rw [hr, if_pos ⟨h, h'⟩]
  · rw [hr, if_neg h, if_pos h']
  · rw [hr, if_neg h, if_neg h']
  · rw [hr]
    split_ifs with ha hb
    · exact ⟨le_rfl, ha⟩
    · show pb ≤ pa ∧ pb ≤ pb ∧ pb ≤ pc
      omega
    · show pc ≤ pa ∧ pc ≤ pb ∧ pc ≤ pc
      omega

/-! ## Bytes -/

/-- Reconstruction of a byte as a number (R157). -/
theorem reconByte_toNat (k : FilterKind) (x a b c : Byte) :
    (reconByte k x a b c).toNat = (x.toNat + predictor k a b c) % 256 :=
  BitVec.toNat_ofNat _ _

/-- Filtering a byte and adding the predictor again gives the byte, the predictor being below 256 (R161, R162). -/
theorem filterByte_add_predictor (k : FilterKind) (o a b c : Byte) :
    ((filterByte k o a b c).toNat + predictor k a b c) % 256 = o.toNat := by
  have hp := predictor_lt k a b c
  have ho := o.isLt
  rw [filterByte, BitVec.toNat_ofNat]
  omega

theorem reconByte_filterByte (k : FilterKind) (o a b c : Byte) : reconByte k (filterByte k o a b c) a b c = o :=
  BitVec.eq_of_toNat_eq ((reconByte_toNat _ _ _ _ _).trans (filterByte_add_predictor k o a b c))

/-- Settles O25: both clauses say that the predictor taken away is added again. -/
theorem reconstructionInvertsFilteringOfAByte : Obligations.ReconstructionInvertsFilteringOfAByte :=
  fun k o a b c => ⟨filterByte_add_predictor k o a b c, reconByte_filterByte k o a b c⟩

/-! ## Rows -/

/-- The byte one pixel to the left of a column, 0 in the first pixel (R154). -/
def leftPixel (bpp : Nat) (row : List Byte) (col : Nat) : Byte :=
  if bpp ≤ col then row.getD (col - bpp) 0#8 else 0#8

/-- Where the loop over a row finds that byte among the bytes before the column, newest first. -/
theorem getD_eq_leftPixel {bpp : Nat} (hbpp : 1 ≤ bpp) (before after : List Byte) :
    before.getD (bpp - 1) 0#8 = leftPixel bpp (before.reverse ++ after) before.length := by
  unfold leftPixel
  split
  · next h =>
    rw [List.getD_append _ _ _ _ (by rw [List.length_reverse]; omega), List.getD_reverse _ (by omega)]
    congr 1
    omega
  · next h => rw [List.getD_eq_default _ _ (by omega)]

/-- The byte of a column, counted from where the loop stands: `left` and `aboveLeft` are the part of the two rows before it. -/
theorem reconLoop_getD {k : FilterKind} {bpp : Nat} (hbpp : 1 ≤ bpp) {raw : List Byte} :
    ∀ {left aboveLeft above : List Byte} {col : Nat}, aboveLeft.length = left.length → above.length = raw.length →
      col < raw.length →
      (reconLoop k bpp left aboveLeft above raw).getD col 0#8 =
        reconByte k (raw.getD col 0#8)
          (leftPixel bpp (left.reverse ++ reconLoop k bpp left aboveLeft above raw) (left.length + col))
          (above.getD col 0#8) (leftPixel bpp (aboveLeft.reverse ++ above) (left.length + col)) := by
  induction raw with
  | nil => intro _ _ _ _ _ _ hcol; cases hcol
  | cons x raw ih =>
    intro left aboveLeft above col hleft habove hcol
    obtain ⟨b, above, rfl⟩ := List.exists_cons_of_length_pos (habove ▸ Nat.succ_pos _ : 0 < above.length)
    simp only [reconLoop, List.headD_cons, List.tail_cons]
    cases col with
    | zero =>
      simp only [List.getD_cons_zero, Nat.add_zero]
      rw [← getD_eq_leftPixel hbpp left, ← hleft, ← getD_eq_leftPixel hbpp aboveLeft]
    | succ col =>
      have hnext := ih (left := reconByte k x (left.getD (bpp - 1) 0#8) b (aboveLeft.getD (bpp - 1) 0#8) :: left)
        (aboveLeft := b :: aboveLeft) (by simp [hleft]) (Nat.succ.inj habove) (Nat.lt_of_succ_lt_succ hcol)
      simpa only [List.getD_cons_succ, List.reverse_cons, List.append_assoc, List.singleton_append, List.length_cons,
        Nat.add_assoc, Nat.add_comm 1] using hnext

/-- Settles O21: the loop from the first column. -/
theorem rebuiltBytesUseTheirNeighbours : Obligations.RebuiltBytesUseTheirNeighbours := by
  intro k bpp above raw col hbpp habove hcol row a b c
  have hbyte : row.getD col 0#8 = reconByte k (raw.getD col 0#8) (leftPixel bpp row (0 + col)) b
      (leftPixel bpp above (0 + col)) := reconLoop_getD hbpp rfl habove hcol
  rw [hbyte, Nat.zero_add]
  exact reconByte_toNat _ _ a b c

theorem filterLoop_length (k : FilterKind) (bpp : Nat) (original : List Byte) :
    ∀ left aboveLeft above, (filterLoop k bpp left aboveLeft above original).length = original.length := by
  induction original with
  | nil => intros; rfl
  | cons o os ih => intros; simp [filterLoop, ih]

/-- A filtered row has as many bytes as the row, its filter-type byte apart (R161). -/
theorem filterRow_length (k : FilterKind) (bpp : Nat) (above original : List Byte) :
    (filterRow k bpp above original).length = original.length :=
  filterLoop_length k bpp original _ _ _

/-- Both loops look at the same neighbours: those the one rebuilds are the original bytes of the other (R162). -/
theorem reconLoop_filterLoop (k : FilterKind) (bpp : Nat) (original : List Byte) :
    ∀ left aboveLeft above,
      reconLoop k bpp left aboveLeft above (filterLoop k bpp left aboveLeft above original) = original := by
  induction original with
  | nil => intros; rfl
  | cons o os ih =>
    intro left aboveLeft above
    rw [filterLoop, reconLoop, reconByte_filterByte, ih]

/-- Reconstruction inverts filtering of a row (R162 (a)). -/
theorem reconRow_filterRow (k : FilterKind) (bpp : Nat) (above original : List Byte) :
    reconRow k bpp above (filterRow k bpp above original) = original :=
  reconLoop_filterLoop k bpp original _ _ _

end Sys2Proof.Machine
end

section
/-! PROOF. The command DEFILTER (42_defilter.md R152, R153, R158): its checks in their order, and its rows. One internal step
turns the filtering of a row in the source region into that row, and the last one writes them all, so by induction on the rows to
come the filtering of an image is turned into the image (R162 (a)). -/

namespace Sys2Proof.Machine

/-! ## The checks -/

/-- `IMG_FMT.INTERLACE` is the top byte (R29). -/
theorem State.interlace_eq (s : State) : s.interlace = s.imgFmt.toNat / 2 ^ 24 := by
  have h := s.imgFmt.isLt
  unfold State.interlace field
  omega

theorem State.colorType_eq (s : State) : s.colorType = s.imgFmt.toNat % 2 ^ 8 := by
  rw [State.colorType, field, Nat.pow_zero, Nat.div_one]

/-- The colour types of R44's table are the only ones with bytes per pixel. -/
theorem bytesPerPixel_of_not_mem {ct : Nat} (h : ct ∉ [0, 2, 3, 4, 6]) : bytesPerPixel ct = none := by
  unfold bytesPerPixel
  split
  case h_6 => rfl
  all_goals exact absurd (by decide) h

/-- A check of R152 or R153 that fails completes the command with its error. -/
theorem exec_defilter_error {s : State} {e : Err} (hs : s.status = Status.running) (h : s.defilterParams = .error e) :
    s.RaisesUnchanged .defilter e := by
  refine ⟨s.raise e, ?_, s.raise_spec e hs⟩
  show execDefilter s = _
  rw [execDefilter, h]

/-- The checks of R152 that come before those of the image's size. -/
theorem State.defilterParams_format {s : State} :
    (s.interlace ≠ 0 → s.defilterParams = .error .interlace)
      ∧ (s.interlace = 0 → s.compMethod ≠ 0 ∨ s.filterMethod ≠ 0 → s.defilterParams = .error .method)
      ∧ (s.interlace = 0 → s.compMethod = 0 → s.filterMethod = 0 → bytesPerPixel s.colorType = none →
          s.defilterParams = .error .colortype) := by
  refine ⟨fun h => ?_, fun h h' => ?_, fun h h' h'' hct => ?_⟩ <;> simp [State.defilterParams, *]

/-- The checks of the image's size, for a format that passed (R152, R153). -/
theorem State.defilterParams_size {s : State} {bpp : Nat} (hlace : s.interlace = 0) (hcomp : s.compMethod = 0)
    (hfilt : s.filterMethod = 0) (hct : bytesPerPixel s.colorType = some bpp) :
    s.defilterParams =
      if s.imgW.toNat = 0 ∨ s.imgH.toNat = 0 then .error .dim
      else if s.slen.toNat ≠ scanlineLength s.imgW.toNat s.imgH.toNat bpp then .error .len
      else if s.dcap.toNat < pixelLength s.imgW.toNat s.imgH.toNat bpp then .error .dcap
      else .ok bpp := by
  simp [State.defilterParams, hlace, hcomp, hfilt, hct, ← BitVec.toNat_inj]

/-- The checks of the regions, for parameters that passed (R130, R264). -/
theorem exec_defilter_regions {s : State} {bpp : Nat} (h : s.defilterParams = .ok bpp) :
    exec .defilter s =
      if !(s.holds s.srcRegion && s.holds (s.pixelRegion bpp)) then .next (s.raise .addr)
      else if (s.pixelRegion bpp).overlaps s.srcRegion then .next (s.raise .overlap)
      else .next { s with engine := .filt (s.filtStart bpp) } := by
  show execDefilter s = _
  rw [execDefilter, h]

theorem exec_defilter_outside {s : State} {bpp : Nat} (hs : s.status = Status.running) (h : s.defilterParams = .ok bpp)
    (hout : s.params.bufSize < s.src.toNat + s.slen.toNat
      ∨ s.params.bufSize < s.dst.toNat + pixelLength s.imgW.toNat s.imgH.toNat bpp) : s.RaisesUnchanged .defilter .addr := by
  refine ⟨s.raise .addr, (exec_defilter_regions h).trans (if_pos ?_), s.raise_spec _ hs⟩
  rcases hout with hsrc | hdst
  · rw [(s.not_holds_iff s.srcRegion).2 hsrc]
    rfl
  · rw [(s.not_holds_iff (s.pixelRegion bpp)).2 hdst, Bool.and_false]
    rfl

section
variable {s : State} {bpp : Nat} (h : s.defilterParams = .ok bpp) (hsrc : s.holds s.srcRegion = true)
  (hdst : s.holds (s.pixelRegion bpp) = true)
include h hsrc hdst

theorem exec_defilter_overlapping (hs : s.status = Status.running)
    (hover : (s.pixelRegion bpp).overlaps s.srcRegion = true) : s.RaisesUnchanged .defilter .overlap :=
  ⟨s.raise .overlap, by simp [exec_defilter_regions h, hsrc, hdst, hover], s.raise_spec _ hs⟩

/-- DEFILTER that passes its checks starts at row 0 (R158). -/
theorem exec_defilter_starts (hover : (s.pixelRegion bpp).overlaps s.srcRegion = false) :
    exec .defilter s = .next { s with engine := .filt (s.filtStart bpp) } := by
  simp [exec_defilter_regions h, hsrc, hdst, hover]

end

theorem bpp_pos_of_mem {ct bpp : Nat} (h : (ct, bpp) ∈ [(0, 1), (2, 3), (3, 1), (4, 2), (6, 4)]) : 0 < bpp := by
  simp only [List.mem_cons, Prod.mk.injEq, List.not_mem_nil, or_false] at h
  omega

/-- Settles O20: the checks of `defilterParams` in their order, then those of the regions. -/
theorem defilterChecksInOrderThenStarts : Obligations.DefilterChecksInOrderThenStarts := by
  intro s hs ct comp filt lace w h
  obtain ⟨hinterlace, hmethod, hcolortype⟩ := s.defilterParams_format
  rw [s.interlace_eq] at hinterlace hmethod hcolortype
  have hcolor : s.colorType = ct := s.colorType_eq
  refine ⟨fun hl => exec_defilter_error hs (hinterlace hl), fun hl hm => exec_defilter_error hs (hmethod hl hm),
    fun hl hc hf hct => exec_defilter_error hs (hcolortype hl hc hf (hcolor ▸ bytesPerPixel_of_not_mem hct)),
    fun bpp hbpp hl hc hf => ?_⟩
  have hsize := State.defilterParams_size (s.interlace_eq.trans hl) hc hf (hcolor ▸ bytesPerPixel_of_mem hbpp)
  refine ⟨fun hdim => exec_defilter_error hs (hsize.trans (if_pos hdim)), fun hw hh => ?_⟩
  have hsize := hsize.trans (if_neg (not_or.2 ⟨hw, hh⟩))
  refine ⟨fun hlen => exec_defilter_error hs (hsize.trans (if_pos hlen)), fun hlen => ?_⟩
  have hsize := hsize.trans (if_neg (not_not.2 hlen))
  refine ⟨fun hcap => exec_defilter_error hs (hsize.trans (if_pos hcap)), fun hcap => ?_⟩
  have hok := hsize.trans (if_neg (Nat.not_lt.2 hcap))
  refine ⟨exec_defilter_outside hs hok, fun hsrc hdst => ?_⟩
  have hsrc := (s.holds_iff s.srcRegion).2 hsrc
  have hdst := (s.holds_iff (s.pixelRegion bpp)).2 hdst
  refine ⟨fun hover => exec_defilter_overlapping hok hsrc hdst hs ?_, fun hapart => exec_defilter_starts hok hsrc hdst ?_⟩
  · have hstream : 0 < s.slen.toNat := hlen ▸ Nat.mul_pos (Nat.pos_of_ne_zero hh) (by omega)
    have hpixels : 0 < h * w * bpp :=
      Nat.mul_pos (Nat.mul_pos (Nat.pos_of_ne_zero hh) (Nat.pos_of_ne_zero hw)) (bpp_pos_of_mem hbpp)
    exact (Region.overlaps_iff _ _).2 ⟨hpixels, hstream, hover⟩
  · exact (Region.not_overlaps_iff _ _).2 (.inr (.inr hapart))

/-! ## The rows -/

/-- `s` with the working state `f` of a DEFILTER, and nothing else changed. -/
def State.withFilt (s : State) (f : Filt) : State :=
  { s with engine := .filt f }

@[simp] theorem State.withFilt_engine (s : State) (f : Filt) : (s.withFilt f).engine = .filt f := rfl
@[simp] theorem State.withFilt_status (s : State) (f : Filt) : (s.withFilt f).status = s.status := rfl
@[simp] theorem State.withFilt_byteAt (s : State) (f : Filt) (a : Nat) : (s.withFilt f).byteAt a = s.byteAt a := rfl
@[simp] theorem State.withFilt_rowAddr (s : State) (f g : Filt) : (s.withFilt f).rowAddr g = s.rowAddr g := rfl

@[simp] theorem State.withFilt_rawRow (s : State) (f g : Filt) : (s.withFilt f).rawRow g = s.rawRow g :=
  State.memRead_congr (s := s) (t := s.withFilt f) (fun _ => rfl) _ _

/-- What follows a row depends on the working state with that row alone. -/
@[simp] theorem State.withFilt_afterRow (s : State) (f g : Filt) : (s.withFilt f).afterRow g = s.afterRow g := by
  unfold State.afterRow
  split <;> rfl

/-- The filter-type byte of a kind (R110, R156). -/
def FilterKind.instr : FilterKind → Instr
  | .none => .filterNone
  | .sub => .filterSub
  | .up => .filterUp
  | .average => .filterAverage
  | .paeth => .filterPaeth

theorem decodeFilterByte_typeByte (k : FilterKind) : decodeFilterByte k.typeByte = k.instr := by
  cases k <;> rfl

theorem exec_instr (k : FilterKind) (s : State) : exec k.instr s = rebuildRow k s := by
  cases k <;> rfl

/-- A legal filter-type byte rebuilds its row by its kind (R156, R158). -/
theorem exec_instr_eq {s : State} {f : Filt} (k : FilterKind) (h : s.Defiltering f) :
    exec k.instr s = .next (s.afterRow (f.addRow (reconRow k f.bpp f.above (s.rawRow f)))) :=
  (exec_instr k s).trans (defiltering_eq s f _ h)

theorem State.afterRow_more {s : State} {f : Filt} (h : f.row < f.height) : s.afterRow f = s.withFilt f :=
  if_pos h

theorem State.afterRow_last {s : State} {f : Filt} (h : f.row = f.height) :
    s.afterRow f = (s.memWrite s.dst.toNat f.pixels).succeed (f.height * f.rowBytes) :=
  if_neg (by omega)

/-- A success that writes its output to `DST` changes nothing else (R127). -/
theorem State.succeed_memWrite_succeedsWriting {s : State} {out : List Byte} {n : Nat} (hs : s.status = Status.running)
    (hlen : out.length = n) (hn : n < 2 ^ 32) : s.SucceedsWriting ((s.memWrite s.dst.toNat out).succeed n) out := by
  refine ⟨⟨rfl, rfl, rfl, rfl, rfl, rfl, rfl, rfl, rfl, rfl, rfl, rfl, rfl, rfl, rfl, rfl⟩, rfl, ?_, ?_, rfl, rfl, ?_, ?_⟩
  · rw [State.succeed_status, State.memWrite_status, hs, Status.running_succeeded]
  · rw [State.succeed_dlen, BitVec.toNat_ofNat, Nat.mod_eq_of_lt hn, hlen]
  · exact s.byteAt_memWrite_outside s.dst.toNat out
  · exact s.byteAt_memWrite_inside s.dst.toNat out

/-- How many bytes rows of one length have (R111). -/
theorem flatten_length_of_width {rows : List (List Byte)} {n : Nat} (h : ∀ r ∈ rows, r.length = n) :
    rows.flatten.length = rows.length * n := by
  have hlen : ∀ l ∈ rows.map List.length, l = n := by simpa using h
  rw [List.length_flatten, List.sum_eq_card_nsmul _ n hlen]
  simp

/-- Settles O23: `exec_instr_eq`, and the two cases of what follows a row. -/
theorem filterBytesRebuildTheirRow : Obligations.FilterBytesRebuildTheirRow := by
  intro s f i k hf hcount hwidth hshort hi raw above rows
  have hinstr : i = k.instr := by
    simp only [List.mem_cons, Prod.mk.injEq, List.not_mem_nil, or_false] at hi
    rcases hi with ⟨rfl, rfl⟩ | ⟨rfl, rfl⟩ | ⟨rfl, rfl⟩ | ⟨rfl, rfl⟩ | ⟨rfl, rfl⟩ <;> rfl
  have hexec : exec i s = .next (s.afterRow (f.addRow (reconRow k f.bpp above raw))) := hinstr ▸ exec_instr_eq k hf
  obtain ⟨-, -, -, -, hstatus⟩ := hf
  refine ⟨fun hmore => hexec.trans (congrArg _ (State.afterRow_more hmore)), fun hlast => ?_⟩
  rw [State.afterRow_last hlast] at hexec
  have hwidths : ∀ r ∈ rows, r.length = f.rowBytes :=
    List.forall_mem_cons.2 ⟨by rw [reconRow_length, State.memRead_length], hwidth⟩
  have hlen : rows.reverse.flatten.length = f.height * f.rowBytes := by
    rw [flatten_length_of_width (by simpa using hwidths), List.length_reverse, List.length_cons, hcount, hlast]
  have hwrites := s.succeed_memWrite_succeedsWriting hstatus hlen hshort
  refine ⟨_, hexec, hwrites, ?_, rfl, rfl⟩
  obtain ⟨-, -, -, hdlen, -⟩ := hwrites
  exact hdlen.trans hlen

/-! ## The image -/

/-- A region of `BUF` read in two parts. -/
theorem State.memRead_add (s : State) (a m n : Nat) : s.memRead a (m + n) = s.memRead a m ++ s.memRead (a + m) n := by
  induction m generalizing a with
  | zero => simp [State.memRead]
  | succ m ih => rw [Nat.add_right_comm, State.memRead, State.memRead, ih, List.cons_append, Nat.add_right_comm, Nat.add_assoc]

/-- A DEFILTER in flight whose source region holds, from the current row on, the filtering of the rows `rest`. -/
structure HoldsRows (s : State) (f : Filt) (rest : List (FilterKind × List Byte)) : Prop where
  status : s.status = Status.running
  src : s.holds (s.filtSource f) = true
  dst : s.holds (s.filtDest f) = true
  count : f.row + rest.length = f.height
  width : ∀ r ∈ rest, r.2.length = f.rowBytes
  stream : s.memRead (s.rowAddr f) (rest.length * (1 + f.rowBytes)) = filterImage f.bpp f.above rest

namespace HoldsRows

variable {s : State} {f : Filt} {k : FilterKind} {row : List Byte} {rest : List (FilterKind × List Byte)}

theorem row_lt (h : HoldsRows s f ((k, row) :: rest)) : f.row < f.height :=
  h.count ▸ Nat.lt_add_of_pos_right (Nat.succ_pos _)

theorem defiltering (h : HoldsRows s f ((k, row) :: rest)) : (s.withFilt f).Defiltering f :=
  ⟨rfl, h.row_lt, h.src, h.dst, h.status⟩

/-- The bytes of the current row, and those of the rows after it. -/
theorem stream_split (h : HoldsRows s f ((k, row) :: rest)) :
    s.byteAt (s.rowAddr f) = k.typeByte ∧ s.rawRow f = filterRow k f.bpp f.above row
      ∧ s.memRead (s.rowAddr f + (1 + f.rowBytes)) (rest.length * (1 + f.rowBytes)) = filterImage f.bpp row rest := by
  have hstream := h.stream
  rw [List.length_cons, Nat.succ_mul, Nat.add_comm, State.memRead_add, Nat.add_comm 1 f.rowBytes, State.memRead, filterImage,
    List.cons_append, List.cons_append, List.cons.injEq, Nat.add_comm f.rowBytes 1] at hstream
  obtain ⟨htype, hrows⟩ := hstream
  have hlen : (s.memRead (s.rowAddr f + 1) f.rowBytes).length = (filterRow k f.bpp f.above row).length := by
    rw [State.memRead_length, filterRow_length, h.width (k, row) List.mem_cons_self]
  obtain ⟨hraw, hrest⟩ := List.append_inj hrows hlen
  exact ⟨htype, hraw, hrest⟩

/-- The current row rebuilt is the row that was filtered. -/
theorem addRow (h : HoldsRows s f ((k, row) :: rest)) : HoldsRows s (f.addRow row) rest where
  status := h.status
  src := h.src
  dst := h.dst
  count := by
    rw [← show f.row + (rest.length + 1) = (f.addRow row).height from h.count]
    exact Nat.add_right_comm f.row 1 rest.length
  width := fun r hr => h.width r (List.mem_cons_of_mem _ hr)
  stream := by
    obtain ⟨-, -, hrest⟩ := h.stream_split
    have haddr : s.rowAddr (f.addRow row) = s.rowAddr f + (1 + f.rowBytes) := by
      show s.src.toNat + (f.row + 1) * (1 + f.rowBytes) = s.src.toNat + f.row * (1 + f.rowBytes) + (1 + f.rowBytes)
      rw [Nat.succ_mul, Nat.add_assoc]
    rw [haddr]
    exact hrest

/-- One internal step turns the filtering of a row into the row (R158, R162). -/
theorem engineStep_row (h : HoldsRows s f ((k, row) :: rest)) :
    engineStep (s.withFilt f) = .next (s.afterRow (f.addRow row)) := by
  obtain ⟨htype, hraw, -⟩ := h.stream_split
  rw [Machine.engineStep_row (s := s.withFilt f) rfl h.row_lt h.src, State.withFilt_rowAddr, State.withFilt_byteAt, htype,
    decodeFilterByte_typeByte, exec_instr_eq k h.defiltering, State.withFilt_rawRow, hraw, reconRow_filterRow,
    State.withFilt_afterRow]

/-- One internal step for each row to come completes the command with all of them written. -/
theorem runCommand_rows : ∀ {rest : List (FilterKind × List Byte)} {f : Filt}, HoldsRows s f rest →
    runCommand rest.length (s.afterRow f) =
      .next ((s.memWrite s.dst.toNat (f.pixels ++ (rest.map (·.2)).flatten)).succeed (f.height * f.rowBytes))
  | [], f, h => by
    rw [State.afterRow_last h.count, List.map_nil, List.flatten_nil, List.append_nil]
    rfl
  | (k, row) :: rest, f, h => by
    have hbusy : (s.withFilt f).status.busy = true := by rw [State.withFilt_status, h.status]; rfl
    have hpixels : (f.addRow row).pixels = f.pixels ++ row := by simp [Filt.pixels, Filt.addRow]
    rw [State.afterRow_more h.row_lt, List.length_cons, runCommand_succ _ _ _ hbusy h.engineStep_row,
      runCommand_rows h.addRow, hpixels, List.map_cons, List.flatten_cons, List.append_assoc]
    rfl

end HoldsRows

/-- Before the first row the whole source region is to come (R109). -/
theorem holdsRows_filtStart {s : State} {bpp : Nat} {image : List (FilterKind × List Byte)} (hs : s.status = Status.running)
    (hcount : image.length = s.imgH.toNat) (hwidth : ∀ r ∈ image, r.2.length = s.imgW.toNat * bpp)
    (hslen : s.slen.toNat = s.imgH.toNat * (1 + s.imgW.toNat * bpp)) (hsrc : s.holds s.srcRegion = true)
    (hdst : s.holds (s.pixelRegion bpp) = true)
    (hstream : s.memRead s.src.toNat s.slen.toNat = filterImage bpp (List.replicate (s.imgW.toNat * bpp) 0#8) image) :
    HoldsRows s (s.filtStart bpp) image where
  status := hs
  src := by
    rw [← hsrc, State.srcRegion, hslen]
    rfl
  dst := by
    rw [← hdst, State.pixelRegion, pixelLength, Nat.mul_assoc]
    rfl
  count := (Nat.zero_add _).trans hcount
  width := hwidth
  stream := by
    have haddr : s.rowAddr (s.filtStart bpp) = s.src.toNat := by simp [State.rowAddr, State.filtStart]
    rw [haddr, hcount]
    exact hslen ▸ hstream

/-- What the internal steps lead to, the engine's turn leads to (R126). -/
theorem step_engine_of_runEngine {s t : State} {k : Nat} (hbusy : s.status.busy = true) (hturns : s.turns = [])
    (hk : k ≤ s.internalBound) (hrun : runEngine k s = .next t) (hdone : t.status.busy = false) (ht : t.turns = []) :
    step { s with turns := [.engine] } = .next t := by
  obtain ⟨-, hmoves⟩ := engineMovesExactlyWhileBusy { s with turns := [.engine] } []
  obtain ⟨-, hmoves⟩ := hmoves hbusy
  have hs : { s with turns := [] } = s := by rw [← hturns]
  obtain ⟨hmove, -⟩ := hmoves k t hk (by rw [← hrun, ← hs]) hdone
  rw [hmove rfl, ← ht]

/-- Settles O26: the command word starts at row 0 by `defilterChecksInOrderThenStarts`, and `HoldsRows.runCommand_rows` does the
rest. -/
theorem defilterReturnsTheFilteredImage : Obligations.DefilterReturnsTheFilteredImage := by
  intro s bpp image hstatus hturns hidle hcmd hfmt hW hH hcount hwidth hslen hcap hsrc hdst hapart hstream
  have hW' : s.imgW.toNat ≠ 0 := fun h => hW (BitVec.eq_of_toNat_eq h)
  have hH' : s.imgH.toNat ≠ 0 := fun h => hH (BitVec.eq_of_toNat_eq h)
  have hsmall : s.imgFmt.toNat < 2 ^ 8 := by
    simp only [List.mem_cons, Prod.mk.injEq, List.not_mem_nil, or_false] at hfmt
    omega
  obtain ⟨-, -, -, hchecks⟩ := defilterChecksInOrderThenStarts s hstatus
  obtain ⟨-, hchecks⟩ := hchecks bpp (by rwa [Nat.mod_eq_of_lt hsmall]) (by omega) (by omega) (by omega)
  obtain ⟨-, hchecks⟩ := hchecks hW' hH'
  obtain ⟨-, hchecks⟩ := hchecks hslen
  obtain ⟨-, hchecks⟩ := hchecks hcap
  obtain ⟨-, hstarts⟩ := hchecks hsrc hdst
  have h := holdsRows_filtStart hstatus hcount hwidth hslen ((s.holds_iff _).2 hsrc) ((s.holds_iff _).2 hdst) hstream
  have hbusy : s.status.busy = true := by rw [hstatus]; rfl
  have hstart : engineStep s = .next (s.afterRow (s.filtStart bpp)) := by
    rw [engineStep_command hidle, hcmd, State.afterRow_more (f := s.filtStart bpp) (Nat.pos_of_ne_zero hH')]
    exact hstarts hapart
  let out := (image.map (·.2)).flatten
  let n := s.imgH.toNat * (s.imgW.toNat * bpp)
  let t := (s.memWrite s.dst.toNat out).succeed n
  have hrun : runEngine (s.imgH.toNat + 1) s = .next t := by
    rw [runEngine_eq_runCommand _ hturns, ← hcount, runCommand_succ _ _ _ hbusy hstart, h.runCommand_rows]
    rfl
  have hlen : out.length = n := by
    rw [flatten_length_of_width (List.forall_mem_map.2 hwidth), List.length_map, hcount]
  have hn : n < 2 ^ 32 := by
    have hdcap := s.dcap.isLt
    rw [Nat.mul_assoc] at hcap
    omega
  have hsucceeds := s.succeed_memWrite_succeedsWriting hstatus hlen hn
  refine ⟨t, step_engine_of_runEngine hbusy hturns ?_ hrun ?_ hturns, hrun, hsucceeds, rfl, rfl⟩
  · unfold State.internalBound
    omega
  · obtain ⟨-, -, hsuccess, -⟩ := hsucceeds
    rw [hsuccess]
    rfl

end Sys2Proof.Machine
end

section
/-! PROOF. Which canonical sets decode every bit sequence (43_inflate.md R174, R184, R200; 30_encoding.md R104). Bits that are no
code and begin with none are, as a number, past the codes of their length. In a complete set the codes of the greatest length end
at the last number there is, so no bits of that length are past them. -/

namespace Sys2Proof.Machine

/-! ## Bits past the codes -/

section
variable {lens : List Nat} {l : Nat}

/-- Every number in the range of a length is a code of that length (R96). -/
theorem exists_hasCode {code : Nat} (hlens : ∀ l ∈ lens, l ≤ 15) (hl : l ≠ 0) (hfirst : firstCode lens l ≤ code)
    (hbelow : code < firstCode lens l + lengthCount lens l) : ∃ sym, HasCode lens sym l code := by
  rw [lengthCount_eq lens hl] at hbelow
  have hplace : code - firstCode lens l < lens.count l := by omega
  have hsym := List.idxOfNth_lt_length_of_lt_count hplace
  have hlen : lens.getD (lens.idxOfNth l (code - firstCode lens l)) 0 = l := by
    rw [List.getD_eq_getElem _ _ hsym, List.getElem_idxOfNth_eq]
  refine ⟨_, hsym, hlen, ?_⟩
  rw [buildCodes_getD hlens hsym (hlen.symm ▸ hl), hlen, ← List.countBefore_eq_count_take,
    List.countBefore_idxOfNth_of_lt_count hplace, Nat.add_sub_cancel' hfirst]

/-- The bits `p`, as a number, are past the codes of their length. -/
def PastCodes (lens : List Nat) (p : Bits) : Prop :=
  firstCode lens p.length + lengthCount lens p.length ≤ codeValue p

theorem pastCodes_nil (lens : List Nat) : PastCodes lens [] := Nat.le_refl 0

/-- One more bit after bits past the codes either makes a code or is past the codes again. -/
theorem PastCodes.append_singleton {p : Bits} {b : Bool} (h : PastCodes lens p) (hlens : ∀ l ∈ lens, l ≤ 15)
    (hmiss : findCode (p ++ [b]).length (codeValue (p ++ [b])) 0 lens (buildCodes lens).codes = none) :
    PastCodes lens (p ++ [b]) := by
  have hne : (p ++ [b]).length ≠ 0 := by simp
  have hfirst : firstCode lens (p ++ [b]).length ≤ codeValue (p ++ [b]) := by
    rw [codeValue_append_singleton, List.length_append, List.length_singleton, firstCode]
    exact (Nat.mul_le_mul_right 2 h).trans (Nat.le_add_right _ _)
  by_contra hbelow
  obtain ⟨sym, hcode⟩ := exists_hasCode hlens hne hfirst (Nat.lt_of_not_le hbelow)
  rw [(findCode_buildCodes hlens hne sym).2 hcode] at hmiss
  cases hmiss

/-! ## Complete sets -/

/-- The codes up to the greatest length take all of the Kraft sum (R96). -/
theorem kraft_eq (hl : l ≤ 15) (hmax : ∀ k ∈ lens, k ≤ l) :
    kraft lens = (firstCode lens l + lengthCount lens l) * 2 ^ (15 - l) := by
  have hsum : shorterSum lens (l + 1) * 2 ^ (15 - l) = kraft lens * 2 := by
    induction lens with
    | nil => simp [kraft]
    | cons k lens ih =>
      obtain ⟨hk, hlens⟩ := List.forall_mem_cons.1 hmax
      have hpow : 2 ^ (l + 1 - k) * 2 ^ (15 - l) = 2 ^ (15 - k) * 2 := by
        rw [← pow_add, ← pow_succ]
        congr 1
        omega
      have hkraft : kraft (k :: lens) = (if k = 0 then 0 else 2 ^ (15 - k)) + kraft lens := by simp [kraft, Config.maxBits]
      rw [shorterSum_cons, hkraft, Nat.add_mul, Nat.add_mul, ih hlens]
      by_cases hzero : k = 0
      · simp [hzero]
      · simp [hzero, Nat.lt_succ_of_le hk, hpow]
  rw [shorterSum_succ, ← firstCode_eq] at hsum
  linarith

/-- `maxlen` is the least bound of the lengths (R96). -/
theorem maxLen_le {lens : List Nat} (hmax : ∀ k ∈ lens, k ≤ l) : (buildCodes lens).maxLen ≤ l := by
  have hfold (acc : Nat) (hacc : acc ≤ l) : lens.foldl Nat.max acc ≤ l := by
    induction lens generalizing acc with
    | nil => exact hacc
    | cons k lens ih =>
      obtain ⟨hk, hlens⟩ := List.forall_mem_cons.1 hmax
      exact ih hlens _ (Nat.max_le.2 ⟨hacc, hk⟩)
  exact hfold 0 (Nat.zero_le l)

/-- In a complete set no bits of the greatest length are past the codes. -/
theorem not_pastCodes_of_complete (hlens : ∀ l ∈ lens, l ≤ 15) (hkraft : kraft lens = 2 ^ 15) {p : Bits}
    (hp : p.length = (buildCodes lens).maxLen) : ¬ PastCodes lens p := by
  intro h
  have hle : p.length ≤ 15 := hp ▸ maxLen_le hlens
  have hall : (firstCode lens p.length + lengthCount lens p.length) * 2 ^ (15 - p.length) =
      2 ^ p.length * 2 ^ (15 - p.length) := by
    rw [← kraft_eq hle fun k hk => hp ▸ le_maxLen hk, hkraft, ← pow_add, Nat.add_sub_cancel' hle]
  have hend := Nat.eq_of_mul_eq_mul_right (Nat.two_pow_pos _) hall
  exact absurd (codeValue_lt p) (Nat.not_lt.2 (hend ▸ h))

/-- The loop does not use up all lengths in a complete set (R174). -/
theorem huffmanLoop_ne_noCode (hlens : ∀ l ∈ lens, l ≤ 15) (hkraft : kraft lens = 2 ^ 15) (k : Nat) : ∀ (p bs : Bits),
    p.length + k = (buildCodes lens).maxLen → PastCodes lens p →
      huffmanLoop (buildCodes lens) k p.length (codeValue p) bs ≠ .error .noCode := by
  induction k with
  | zero => intro p bs hp hpast; exact absurd hpast (not_pastCodes_of_complete hlens hkraft hp)
  | succ k ih =>
    intro p bs hp hpast
    cases bs with
    | nil => exact nofun
    | cons b bs =>
      cases hfind : findCode (p ++ [b]).length (codeValue (p ++ [b])) 0 lens (buildCodes lens).codes with
      | some sym => rw [huffmanLoop_hit hfind]; exact nofun
      | none =>
        rw [huffmanLoop_miss hfind]
        refine ih _ bs ?_ (hpast.append_singleton hlens hfind)
        rw [List.length_append, List.length_singleton, ← hp, Nat.add_right_comm, Nat.add_assoc]

/-- A complete set finds a symbol or runs out of bits (R184). -/
theorem huffmanDecode_of_complete (hlens : ∀ l ∈ lens, l ≤ 15) (hkraft : kraft lens = 2 ^ 15) (bs : Bits) :
    (∃ sym rest, huffmanDecode (buildCodes lens) bs = .ok (sym, rest) ∧ sym < lens.length)
      ∨ huffmanDecode (buildCodes lens) bs = .error .truncated := by
  cases h : huffmanDecode (buildCodes lens) bs with
  | ok found =>
    obtain ⟨sym, rest⟩ := found
    exact .inl ⟨sym, rest, rfl, (huffmanDecode_ok hlens h).1⟩
  | error e =>
    rcases huffmanLoop_error _ _ _ _ h with ⟨rfl, -⟩ | ⟨rfl, -⟩
    · exact .inr rfl
    · exact absurd h (huffmanLoop_ne_noCode hlens hkraft _ [] bs (Nat.zero_add _) (pastCodes_nil lens))

end

/-! ## Incomplete sets -/

/-- The lengths of the set of one code, of one bit, of the symbol `before` (R104). -/
def oneCodeLens (before after : Nat) : List Nat :=
  List.replicate before 0 ++ 1 :: List.replicate after 0

section
variable (before after : Nat)

theorem oneCodeLens_le_one : ∀ l ∈ oneCodeLens before after, l ≤ 1 := by
  simp +contextual [oneCodeLens, or_imp]

theorem oneCodeLens_le : ∀ l ∈ oneCodeLens before after, l ≤ 15 :=
  fun l hl => (oneCodeLens_le_one before after l hl).trans (by decide)

theorem oneCodeLens_maxLen : (buildCodes (oneCodeLens before after)).maxLen = 1 :=
  le_antisymm (maxLen_le (oneCodeLens_le_one before after)) (le_maxLen (by simp [oneCodeLens]))

theorem oneCodeLens_lengthCount : lengthCount (oneCodeLens before after) 1 = 1 := by
  simp [lengthCount, oneCodeLens, List.count_replicate]

/-- The only code of one bit is 0. -/
theorem oneCodeLens_code {sym code : Nat} (h : HasCode (oneCodeLens before after) sym 1 code) : code = 0 := by
  have hrange := h.range (oneCodeLens_le before after) Nat.one_ne_zero
  rw [oneCodeLens_lengthCount] at hrange
  exact Nat.lt_one_iff.1 hrange.2

theorem oneCodeLens_hasCode : HasCode (oneCodeLens before after) before 1 0 := by
  have h : HasCode (oneCodeLens before after) before 1 ((buildCodes (oneCodeLens before after)).codes.getD before 0) :=
    ⟨by simp [oneCodeLens], by simp [oneCodeLens, List.getD_eq_getElem?_getD], rfl⟩
  exact oneCodeLens_code before after h ▸ h

theorem oneCodeLens_kraft : kraft (oneCodeLens before after) ≤ 2 ^ 15 := by
  rw [kraft_eq (l := 1) (by decide) (oneCodeLens_le_one before after), oneCodeLens_lengthCount]
  simp [firstCode, lengthCount]

/-- The bit 1 is no code (R200). -/
theorem huffmanDecode_oneCode_true (bs : Bits) :
    huffmanDecode (buildCodes (oneCodeLens before after)) (true :: bs) = .error .noCode := by
  have hmiss : findCode 1 1 0 (oneCodeLens before after) (buildCodes (oneCodeLens before after)).codes = none := by
    rw [Option.eq_none_iff_forall_ne_some]
    intro sym hfind
    have hcode := (findCode_buildCodes (oneCodeLens_le before after) Nat.one_ne_zero sym).1 hfind
    exact absurd (oneCodeLens_code before after hcode) Nat.one_ne_zero
  rw [huffmanDecode, oneCodeLens_maxLen]
  exact huffmanLoop_miss (t := buildCodes (oneCodeLens before after)) (p := []) hmiss

end

/-- A set without a code is not looked at (R200). -/
theorem huffmanDecode_no_code (n : Nat) (bs : Bits) : huffmanDecode (buildCodes (List.replicate n 0)) bs = .error .noCode := by
  have hmax : (buildCodes (List.replicate n 0)).maxLen = 0 := Nat.le_zero.1 (maxLen_le (by simp))
  rw [huffmanDecode, hmax]
  rfl

/-- Settles O39: complete sets by `huffmanDecode_of_complete`, the two incomplete ones by the codes they have. -/
theorem completeSetsDecodeEveryBitSequence : Obligations.CompleteSetsDecodeEveryBitSequence := by
  refine ⟨fun lens bs hlens hkraft => huffmanDecode_of_complete hlens hkraft bs, fun before after bs => ⟨?_, ?_, ?_⟩,
    huffmanDecode_no_code, rfl⟩
  · show huffmanDecode (buildCodes (oneCodeLens before after)) [] = _
    rw [huffmanDecode, oneCodeLens_maxLen]
    rfl
  · exact (oneCodeLens_hasCode before after).decode (oneCodeLens_le before after) (oneCodeLens_kraft before after)
      Nat.one_ne_zero bs
  · exact huffmanDecode_oneCode_true before after bs

end Sys2Proof.Machine
end

section
/-! PROOF. The frame of an INFLATE and the elements without extra bits (43_inflate.md R171 to R175, R191, R192, R199, R201, R205
to R208): its checks and its start, the fields it reads, the symbols that end or emit or mean nothing, and the trailer. -/

namespace Sys2Proof.Machine

/-! ## Fields -/

/-- Bit `i` of the value of a field is the `i`-th bit read (R93 (a)). -/
theorem getLsbD_fieldValue_take {n i : Nat} {bs : Bits} (h : n ≤ bs.length) (hi : i < n) :
    (BitVec.ofNat n (fieldValue (bs.take n))).getLsbD i = bs.getD i false := by
  have hbit := fieldBits_getElem? n (BitVec.ofNat n (fieldValue (bs.take n))).toNat i
  rw [fieldBits_take h, List.getElem?_take_of_lt hi, if_pos hi] at hbit
  rw [List.getD_eq_getElem?_getD, hbit]
  rfl

/-- Settles O29: `getField_eq` with its bits by `getLsbD_fieldValue_take`, else `getField_truncated`. -/
theorem fieldsAreReadLeastSignificantBitFirst : Obligations.FieldsAreReadLeastSignificantBitFirst :=
  fun _ _ => ⟨fun h => ⟨_, getField_eq h, fun _ hi => getLsbD_fieldValue_take h hi⟩, getField_truncated, rfl⟩

/-! ## The command -/

section
variable {s : State} (hs : s.status = Status.running)
include hs

/-- A region that leaves `BUF` is `E_ADDR` (R66, R130). -/
theorem exec_inflate_outside (h : s.holds s.srcRegion = false ∨ s.holds s.dstRegion = false) :
    s.RaisesUnchanged .inflate .addr := by
  refine ⟨s.raise .addr, if_pos ?_, s.raise_spec _ hs⟩
  rcases h with h | h <;> simp [h]

/-- Regions that share a byte are `E_OVERLAP` (R67, R130). -/
theorem exec_inflate_overlapping (hsrc : s.holds s.srcRegion = true) (hdst : s.holds s.dstRegion = true)
    (hover : s.dstRegion.overlaps s.srcRegion = true) : s.RaisesUnchanged .inflate .overlap :=
  ⟨s.raise .overlap, (if_neg (by simp [hsrc, hdst])).trans (if_pos hover), s.raise_spec _ hs⟩

end

/-- Settles O27: the checks of `execInflate` in their order. -/
theorem inflateChecksInOrderThenStarts : Obligations.InflateChecksInOrderThenStarts := by
  intro s hs
  refine ⟨fun hout => ?_, fun hsrc hdst => ?_⟩
  · exact exec_inflate_outside hs (hout.imp (s.not_holds_iff s.srcRegion).2 (s.not_holds_iff s.dstRegion).2)
  · have hsrc := (s.holds_iff s.srcRegion).2 hsrc
    have hdst := (s.holds_iff s.dstRegion).2 hdst
    refine ⟨fun hover => exec_inflate_overlapping hs hsrc hdst ((Region.overlaps_iff _ _).2 hover), fun hapart => ?_⟩
    exact ⟨Infl.start, exec_inflate_starts hsrc hdst ((Region.not_overlaps_iff _ _).2 hapart), rfl, rfl, rfl,
      Infl.start_counted⟩

/-! ## Symbols -/

/-- Settles O42: `emit` by whether the byte fits, the end of the block from its definition. -/
theorem literalsAreEmittedAndBlocksEnd : Obligations.LiteralsAreEmittedAndBlocksEnd := by
  refine ⟨fun bs => ⟨fun b => decodeLitLenSymbol_literal b bs, rfl⟩, fun s w h => ⟨fun b hfull => ?_, fun b hroom => ?_, ?_⟩⟩
  · exact h.raises rfl (by rw [Infl.emit_dcap b hfull])
  · exact h.exec_eq rfl (by rw [Infl.emit_eq _ w b hroom]; rfl)
  · exact h.exec_eq rfl rfl

/-- Settles O45: each symbol is one element whose operation is the error. -/
theorem symbolsWithoutMeaningRaiseESymbol : Obligations.SymbolsWithoutMeaningRaiseESymbol := by
  intro s w odd bs h
  refine ⟨?_, ?_, h.raises rfl rfl, h.raises rfl rfl⟩
  · cases odd <;> rfl
  · cases odd <;> rfl

/-! ## The trailer -/

/-- A byte after a word, big-endian. -/
theorem toNat_append_byte {n : Nat} (hi : BitVec n) (lo : Byte) : (hi ++ lo).toNat = hi.toNat * 256 + lo.toNat := by
  rw [BitVec.toNat_append, ← Nat.shiftLeft_add_eq_or_of_lt lo.isLt, Nat.shiftLeft_eq]

/-- Four bytes as a word, big-endian (R8). -/
theorem toNat_append_bytes (b0 b1 b2 b3 : Byte) : (b0 ++ b1 ++ b2 ++ b3).toNat = be [b0, b1, b2, b3] := by
  simp only [toNat_append_byte, be, List.foldl_cons, List.foldl_nil, Nat.zero_mul, Nat.zero_add]

/-- Four bytes are the encoding of their trailer (R105, R205). -/
theorem streamBits_trailer (b0 b1 b2 b3 : Byte) :
    streamBits [b0, b1, b2, b3] = encode (.zlibTrailer (b0 ++ b1 ++ b2 ++ b3)) := by
  show _ = streamBits (serBe 4 (b0 ++ b1 ++ b2 ++ b3).toNat)
  rw [toNat_append_bytes]
  exact congrArg streamBits (serBe_be [b0, b1, b2, b3]).symm

theorem decodeTrailer_truncated {bs : Bits} (h : bs.length < 32) : decodeTrailer bs = .error .truncated := by
  rw [decodeTrailer, getFields_truncated h]

/-- The sums of the working state make the checksum of the output (R105). -/
theorem Infl.Counted.adlerValue_eq {w : Infl} (h : w.Counted) : adlerValue w.s1 w.s2 = adler32 w.out := by
  rw [adler32, ← h.2]

/-- Settles O33: the bits by `streamBits_trailer`, then the two cases of `execZlibTrailer_eq`. -/
theorem trailerVerifiesAndCompletes : Obligations.TrailerVerifiesAndCompletes := by
  refine ⟨fun b0 b1 b2 b3 rest => ?_, fun bs => decodeTrailer_truncated, fun s w a h hw hcap => ⟨fun ha => ?_, fun ha => ?_⟩⟩
  · rw [streamBits_trailer]
    exact decodeTrailer_encode _ rest
  · rw [← hw.adlerValue_eq] at ha
    obtain ⟨-, -, -, hstatus⟩ := id h
    refine ⟨_, exec_zlibTrailer_done h ha, State.inflateDone_succeedsWriting hstatus hw hcap, rfl, ?_⟩
    rw [State.inflateDone_adler, ← ha, BitVec.ofNat_toNat, BitVec.setWidth_eq]
  · rw [← hw.adlerValue_eq] at ha
    obtain ⟨-, -, -, hstatus⟩ := id h
    exact ⟨_, (execZlibTrailer_eq h a).trans (by rw [if_neg ha]), s.raiseData_spec _ _ hstatus⟩

end Sys2Proof.Machine
end

section
/-! PROOF. MODEXP (44_modexp.md R220 to R230): the square-and-multiply loop computes the power reduced, by an invariant over the
bits of the exponent; the checks of the command in their order and what its data stage writes; RSA by Fermat's theorem. -/

namespace Sys2Proof.Machine

/-! ## The function -/

/-- A number has as many bits as `bitlen` says (R225). -/
theorem lt_two_pow_bitLength (k : Nat) : k < 2 ^ bitLength k := by
  unfold bitLength
  split
  case isTrue h => simp [h]
  case isFalse => exact Nat.lt_log2_self

/-- The bits from `i` up are those from `i + 1` up and bit `i`. -/
theorem div_two_pow_eq_testBit (k i : Nat) : k / 2 ^ i = 2 * (k / 2 ^ (i + 1)) + (k.testBit i).toNat := by
  rw [Nat.toNat_testBit, pow_succ, ← Nat.div_div_eq_div_mul]
  omega

/-- One turn of the loop of R225: it squares, and multiplies by the base where bit `i` is 1, so the power of the bits from
`i + 1` up becomes that of the bits from `i` up. -/
theorem modexpLoop_turn (m k n i : Nat) :
    modexpLoop k (m % n) n (i + 1) (m ^ (k / 2 ^ (i + 1)) % n) = modexpLoop k (m % n) n i (m ^ (k / 2 ^ i) % n) := by
  have hsquare : m ^ (k / 2 ^ (i + 1)) % n * (m ^ (k / 2 ^ (i + 1)) % n) % n = m ^ (2 * (k / 2 ^ (i + 1))) % n := by
    rw [← Nat.mul_mod, ← pow_add, ← two_mul]
  rw [modexpLoop, hsquare, div_two_pow_eq_testBit k i]
  cases k.testBit i with
  | false => rfl
  | true => exact congrArg (modexpLoop k (m % n) n i) (Nat.mul_mod _ _ _).symm

/-- The invariant of the loop of R225: started from the power of the bits from `i` up, it ends with the whole power. -/
theorem modexpLoop_eq (m k n i : Nat) : modexpLoop k (m % n) n i (m ^ (k / 2 ^ i) % n) = m ^ k % n := by
  induction i with
  | zero => rw [modexpLoop, pow_zero, Nat.div_one]
  | succ i ih => exact (modexpLoop_turn m k n i).trans ih

/-- `modexp` is the power reduced, for every modulus (R225). -/
theorem modexp_eq (m k n : Nat) : modexp m k n = m ^ k % n := by
  have hstart : 1 % n = m ^ (k / 2 ^ bitLength k) % n := by
    rw [Nat.div_eq_of_lt (lt_two_pow_bitLength k), pow_zero]
  rw [modexp, hstart, modexpLoop_eq]

/-- Settles O48, by `modexp_eq`. -/
theorem modexpIsThePowerReduced : Obligations.ModexpIsThePowerReduced :=
  fun m k n hn => ⟨modexp_eq m k n, modexp_eq m k n ▸ Nat.mod_lt _ hn⟩

/-! ## The checks -/

/-- The sources of MODEXP as pairs of address and length: base, exponent and modulus (R222). -/
abbrev State.modexpSources (s : State) : List (Nat × Nat) :=
  [(s.src.toNat, s.slen.toNat), (s.expAddr.toNat, s.expLen.toNat), (s.modAddr.toNat, s.modLen.toNat)]

/-- The four regions of MODEXP, the destination last (R222). -/
abbrev State.modexpOperands (s : State) : List (Nat × Nat) :=
  s.modexpSources ++ [(s.dst.toNat, s.dcap.toNat)]

/-- The check of R224 as an inequality on some length. -/
theorem State.operandTooLong_iff (s : State) :
    s.operandTooLong = true ↔ ∃ q ∈ s.modexpOperands, s.params.maxOp < q.2 := by
  simp [State.operandTooLong, or_assoc]

/-- The check of R66 as an inequality on some region. -/
theorem State.modexpRegionsValid_eq_false_iff (s : State) :
    s.modexpRegionsValid = false ↔ ∃ q ∈ s.modexpOperands, s.params.bufSize < q.1 + q.2 := by
  simp only [State.modexpRegionsValid, Bool.and_eq_false_iff, State.not_holds_iff]
  simp [State.srcRegion, State.expRegion, State.modRegion, State.dstRegion, or_assoc]

/-- The check of R67 as inequalities on some source. -/
theorem State.modexpOverlap_iff (s : State) :
    s.modexpOverlap = true ↔
      ∃ q ∈ s.modexpSources, 0 < s.dcap.toNat ∧ 0 < q.2 ∧ s.dst.toNat < q.1 + q.2 ∧ q.1 < s.dst.toNat + s.dcap.toNat := by
  simp only [State.modexpOverlap, Bool.or_eq_true, Region.overlaps_iff]
  simp [State.srcRegion, State.expRegion, State.modRegion, State.dstRegion, or_assoc]

section
variable {s : State} (hs : s.status = Status.running)
include hs

/-- A length above `MAXOP` is `E_OPLEN` (R224). -/
theorem exec_modexp_tooLong (hlong : s.operandTooLong = true) : s.RaisesUnchanged .modexp .oplen :=
  ⟨s.raise .oplen, if_pos hlong, s.raise_spec _ hs⟩

/-- A region that leaves `BUF` is `E_ADDR` (R66, R130). -/
theorem exec_modexp_outside (hlong : ¬ s.operandTooLong = true) (hout : s.modexpRegionsValid = false) :
    s.RaisesUnchanged .modexp .addr :=
  ⟨s.raise .addr, (if_neg hlong).trans (if_pos (by rw [hout]; rfl)), s.raise_spec _ hs⟩

/-- A destination that shares a byte with a source is `E_OVERLAP` (R67, R130). -/
theorem exec_modexp_overlapping (hlong : ¬ s.operandTooLong = true) (hin : ¬ s.modexpRegionsValid = false)
    (hlaps : s.modexpOverlap = true) : s.RaisesUnchanged .modexp .overlap :=
  ⟨s.raise .overlap, (if_neg hlong).trans ((if_neg (by simpa using hin)).trans (if_pos hlaps)), s.raise_spec _ hs⟩

end

/-! ## The data stage -/

/-- MODEXP that passes its checks reaches its data stage (R228). -/
theorem exec_modexp_eq_data {s : State} (hlong : ¬ s.operandTooLong = true) (hin : ¬ s.modexpRegionsValid = false)
    (hlaps : ¬ s.modexpOverlap = true) : exec .modexp s = modexpData s :=
  (if_neg hlong).trans ((if_neg (by simpa using hin)).trans (if_neg hlaps))

/-- A modulus of 0 is `E_MODZERO` (R226). -/
theorem modexpData_modzero {s : State} (hn : s.modulus = 0) : modexpData s = .next (s.raiseData s.dstRegion .modzero) :=
  if_pos hn

/-- The result of MODEXP in the words of R225. -/
def State.modexpResult (s : State) : Nat :=
  s.base ^ s.exponent % s.modulus

section
variable {s : State} (hn : s.modulus ≠ 0)
include hn

/-- A result of more than `DCAP` bytes is `E_RANGE` (R227). -/
theorem modexpData_range (h : 256 ^ s.dcap.toNat ≤ s.modexpResult) :
    modexpData s = .next (s.raiseData s.dstRegion .range) := by
  rw [State.modexpResult, ← modexp_eq] at h
  exact (if_neg hn).trans (if_pos h)

/-- A result that fits is written as `DCAP` bytes (R228, R112). -/
theorem modexpData_writes (h : s.modexpResult < 256 ^ s.dcap.toNat) :
    modexpData s = .next ((s.memWrite s.dst.toNat (serBe s.dcap.toNat s.modexpResult)).succeed s.dcap.toNat) := by
  rw [State.modexpResult, ← modexp_eq] at h ⊢
  exact (if_neg hn).trans (if_neg (Nat.not_le.2 h))

end

/-- Settles O50: the checks of `execModexp` in their order, then the two errors of the data stage. -/
theorem modexpErrorsComeInTheirOrder : Obligations.ModexpErrorsComeInTheirOrder := by
  intro s hs src exp mod dst n r long out laps
  have hlong : s.operandTooLong = true ↔ long := s.operandTooLong_iff
  have hout : s.modexpRegionsValid = false ↔ out := s.modexpRegionsValid_eq_false_iff
  have hlaps : s.modexpOverlap = true ↔ laps := s.modexpOverlap_iff
  rw [← hlong, ← hout, ← hlaps]
  refine ⟨exec_modexp_tooLong hs, exec_modexp_outside hs, exec_modexp_overlapping hs, fun hshort hin hapart hn => ?_,
    fun hshort hin hapart hn hrange => ?_⟩
  · exact ⟨_, (exec_modexp_eq_data hshort hin hapart).trans (modexpData_modzero hn), s.raiseData_spec _ _ hs⟩
  · exact ⟨_, (exec_modexp_eq_data hshort hin hapart).trans (modexpData_range hn hrange), s.raiseData_spec _ _ hs⟩

/-- Settles O49: no check fails, so the data stage writes the result. -/
theorem modexpWritesTheResult : Obligations.ModexpWritesTheResult := by
  intro s hs src exp mod dst n r hfits hapart hn hr
  have hshort : ¬ s.operandTooLong = true := by
    rw [s.operandTooLong_iff]
    rintro ⟨q, hq, hlong⟩
    exact absurd (hfits q hq).1 (Nat.not_le.2 hlong)
  have hin : ¬ s.modexpRegionsValid = false := by
    rw [s.modexpRegionsValid_eq_false_iff]
    rintro ⟨q, hq, hout⟩
    exact absurd (hfits q hq).2 (Nat.not_le.2 hout)
  have hdisjoint : ¬ s.modexpOverlap = true := by
    rw [s.modexpOverlap_iff]
    rintro ⟨q, hq, hlaps⟩
    have hsep : s.dcap.toNat = 0 ∨ q.2 = 0 ∨ q.1 + q.2 ≤ s.dst.toNat ∨ s.dst.toNat + s.dcap.toNat ≤ q.1 := hapart q hq
    omega
  have hwrites := State.succeed_memWrite_succeedsWriting (s := s) hs (serBe_length s.dcap.toNat r) s.dcap.isLt
  have hdlen : BitVec.ofNat 32 s.dcap.toNat = s.dcap := by rw [BitVec.ofNat_toNat, BitVec.setWidth_eq]
  refine ⟨_, (exec_modexp_eq_data hshort hin hdisjoint).trans (modexpData_writes hn hr), hwrites, hdlen, ?_, rfl, rfl⟩
  have hread := hwrites.memRead_eq
  rw [State.succeed_dlen, hdlen] at hread
  exact (congrArg be hread).trans (be_serBe hr)

/-! ## RSA -/

/-- Raising to a power that is 1 modulo a multiple of `p - 1` changes nothing modulo the prime `p`: Fermat's theorem, which
holds for a base `p` divides too. -/
theorem pow_modEq_self_of_sub_one_dvd {p x m : Nat} (hp : p.Prime) (hx : 1 ≤ x) (h : p - 1 ∣ x - 1) : m ^ x ≡ m [MOD p] := by
  have hfermat := Int.ModEq.pow_eq_pow hp h hx Nat.one_pos (m : Int)
  rw [pow_one] at hfermat
  exact_mod_cast hfermat

/-- Raising to the product of an inverse pair of exponents changes nothing modulo a product of two primes (R230). -/
theorem pow_modEq_self_of_inverse {p q x m : Nat} (hp : p.Prime) (hq : q.Prime) (hne : p ≠ q)
    (hx : x % ((p - 1) * (q - 1)) = 1) : m ^ x ≡ m [MOD p * q] := by
  have hpos : 1 ≤ x := hx ▸ Nat.mod_le x _
  have hdvd : (p - 1) * (q - 1) ∣ x - 1 := by
    have h := Nat.dvd_sub_mod (n := (p - 1) * (q - 1)) x
    rwa [hx] at h
  rw [← Nat.modEq_and_modEq_iff_modEq_mul ((Nat.coprime_primes hp hq).2 hne)]
  exact ⟨pow_modEq_self_of_sub_one_dvd hp hpos (dvd_of_mul_right_dvd hdvd),
    pow_modEq_self_of_sub_one_dvd hq hpos (dvd_of_mul_left_dvd hdvd)⟩

/-- Settles O52, by `pow_modEq_self_of_inverse`. -/
theorem rsaDecryptionReturnsTheMessage : Obligations.RsaDecryptionReturnsTheMessage := by
  intro p q e d m hp hq hne hinverse hm
  calc modexp (modexp m e (p * q)) d (p * q)
      = m ^ (e * d) % (p * q) := by rw [modexp_eq, modexp_eq, ← Nat.pow_mod, pow_mul]
    _ = m % (p * q) := pow_modEq_self_of_inverse hp hq hne hinverse
    _ = m := Nat.mod_eq_of_lt hm

end Sys2Proof.Machine
end

section
/-! PROOF. Reset (70_reset_and_hazards.md R280, R281, 10_state.md R45): the state `State.resetWith` gives has every register 0
and is coherent for all parameters in range, and the reset input keeps nothing of the block but the parameters. -/

namespace Sys2Proof.Machine

/-- Every index of the register file reads 0 after reset, the unassigned ones as always (R34, R45). -/
@[simp] theorem State.resetWith_register (p : Params) (i : Nat) : (State.resetWith p).register i = 0#32 := by
  unfold State.register
  split <;> rfl

/-- The state after reset is coherent for all parameters in the ranges of R5. -/
theorem State.resetWith_coherent {p : Params} (h : p.Ok) : (State.resetWith p).Coherent :=
  .of_idle h ⟨State.resetWith_wf p, fun _ hc => absurd hc List.not_mem_nil⟩ (by decide : Status.zero.Lawful) rfl

/-- The reset input leaves the register file of `resetWith`: what it keeps of the host's side is no register. -/
@[simp] theorem State.applyReset_register (s : State) (i : Nat) : s.applyReset.register i = 0#32 :=
  State.resetWith_register s.params i

/-- A byte of `BUF` is unlisted after the reset input, so it reads as a free byte of that reset (R45, log 2). -/
@[simp] theorem State.applyReset_byteAt (s : State) (a : Nat) :
    s.applyReset.byteAt a = Config.resetByte (s.resets + 1) a := by
  simp [State.byteAt, State.unlistedByte, Memory.read?]

/-- A reset turn is the reset input, whatever the state: a command in flight is abandoned (R281). -/
theorem step_reset {s : State} {ts : List Turn} (h : s.turns = .reset :: ts) :
    step s = .next { s with turns := ts }.applyReset := by
  rw [step, h]

theorem Params.standard_ok : Params.standard.Ok := by
  decide

/-- Settles O9: by `step_reset` a reset turn answers `applyReset`, whose registers and bytes are given above; the state the
model starts from is `resetWith` of the standard parameters. -/
theorem resetClearsEveryRegister : Obligations.ResetClearsEveryRegister := by
  refine ⟨fun s ts h => ⟨_, step_reset h, ?_⟩, State.resetWith_register _, rfl, State.resetWith_coherent Params.standard_ok⟩
  exact ⟨State.applyReset_register _, State.applyReset_engine _, State.applyReset_byteAt _, State.applyReset_params _,
    State.applyReset_turns _⟩

end Sys2Proof.Machine
end
